-- ==== Sys2Proof/Word.lean ====
section
/-! DEFINITION. The word types of the OWEN codec block: bytes of buffers, 16-bit halves (command words, hashes,
CRCs) and 32-bit words (`VAL`, `wdata`, `rdata`). Widths: spec/10_state.md R10, spec/30_encoding.md R60. -/

namespace Sys2Proof

/-- One byte of a buffer, a name character, or the `imm` field of a command word. -/
abbrev Byte := BitVec 8

/-- A 16-bit value: command word, hash, CRC, time or index field. -/
abbrev Half := BitVec 16

/-- A 32-bit value: `VAL`, `wdata`, `rdata`. -/
abbrev Word := BitVec 32

end Sys2Proof
end

