-- ==== Sys2Proof/Syntax.lean ====
section
/-! DEFINITION. The 29 commands of the block, one constructor per row of spec/opcode_table.json
(spec/30_encoding.md R63). Operands are those of the `imm` field (R62, R64); `wdata` is an input of the port and is
read from the state. A register number or buffer identifier is the raw 8-bit `imm`: the reserved values match their
row of the table (R63) and fault inside the command's own rule (spec/40_host_access.md R83 to R88). -/

namespace Sys2Proof

/-- A command of the block: the analogue of an instruction (spec/00_scope.md R9). -/
inductive Instr where
  /-- R80 -/
  | nop
  /-- R81 -/
  | clrerr
  /-- R82 -/
  | srst
  /-- R83: `r` is the register number. -/
  | rdr (r : Byte)
  /-- R84: `r` is the register number. -/
  | wrr (r : Byte)
  /-- R85: `b` is the buffer identifier. -/
  | bclr (b : Byte)
  /-- R86: `b` is the buffer identifier. -/
  | bpush (b : Byte)
  /-- R87: `b` is the buffer identifier. -/
  | brd (b : Byte)
  /-- R88: `b` is the buffer identifier. -/
  | blen (b : Byte)
  /-- R106 -/
  | hclr
  /-- R107: `c` is the character code. -/
  | hchr (c : Byte)
  /-- R108 -/
  | hmix
  /-- R122 -/
  | cclr
  /-- R123: `v` is the data byte. -/
  | cbyte (v : Byte)
  /-- R124: `b` is the buffer identifier. -/
  | cbuf (b : Byte)
  /-- R132: `signed` is the modifier S. -/
  | pki16 (signed : Bool)
  /-- R133: `signed` is the modifier S. -/
  | pkchr (signed : Bool)
  /-- R134: the modifiers T (time present) and I (index present). -/
  | pkf32 (time index : Bool)
  /-- R135 -/
  | pkf24
  /-- R136 -/
  | pkstr
  /-- R137: `signed` is the modifier S. -/
  | upi16 (signed : Bool)
  /-- R138: `signed` is the modifier S. -/
  | upchr (signed : Bool)
  /-- R139: the modifiers T (time present) and I (index present). -/
  | upf32 (time index : Bool)
  /-- R140 -/
  | upf24
  /-- R141 -/
  | upstr
  /-- R154: `request` is the modifier Q. -/
  | fpack (request : Bool)
  /-- R155 -/
  | funpk
  /-- R166 -/
  | rpack
  /-- R167 -/
  | runpk
  deriving DecidableEq, Repr

end Sys2Proof
end

