-- ==== Sys2Proof/WellFormed.lean ====
section
/-! DEFINITION. Which commands are legal encodings (spec/30_encoding.md R62): the register number of format R is at
most `0x0E`, the buffer identifier of format B at most `0x03`. Formats Z, D and M have no ill-formed term: their
operands are of exactly the legal shape. An ill-formed command is still decoded (it matches its row of the table,
R63) and its meaning faults ReservedImmediate (R66). -/

namespace Sys2Proof

/-- The legal set of format R (R62): register numbers `0x00` to `0x0E`. -/
def legalRegister (r : Byte) : Bool := r.toNat ≤ 0x0E

/-- The legal set of format B (R62): buffer identifiers `0x00` to `0x03`. -/
def legalBuffer (b : Byte) : Bool := b.toNat ≤ 0x03

/-- A command whose `imm` is in the legal set of its format (R62). -/
def Instr.wellFormed (i : Instr) : Bool :=
  match i with
  | .rdr r | .wrr r => legalRegister r
  | .bclr b | .bpush b | .brd b | .blen b | .cbuf b => legalBuffer b
  | .nop | .clrerr | .srst | .hclr | .hchr _ | .hmix | .cclr | .cbyte _ => true
  | .pki16 _ | .pkchr _ | .pkf32 _ _ | .pkf24 | .pkstr => true
  | .upi16 _ | .upchr _ | .upf32 _ _ | .upf24 | .upstr => true
  | .fpack _ | .funpk | .rpack | .runpk => true

end Sys2Proof
end

