-- ==== Sys2Proof/Decode.lean ====
section
/-! DEFINITION. Decoding and encoding of command words (spec/30_encoding.md R61 to R66, R70). The decoder is total on
16-bit words: it looks up `opc` first, then checks `imm` against the format, and rejects by name. The encoder is
written from the same table (R63). A command word is presented at the port whole, so it has no byte order (log entry
5). -/

namespace Sys2Proof

/-- Why a command word is no command of the block. -/
inductive DecodeError where
  /-- `opc` is that of no row (R65). -/
  | reservedOpcode
  /-- `imm` is outside the legal set of format Z or M (R66). -/
  | reservedImmediate
  deriving DecidableEq, Repr

/-- The field `opc`, bits 15:8 of a command word (R61). -/
def opcOf (cw : Half) : Byte := cw.extractLsb' 8 8

/-- The field `imm`, bits 7:0 of a command word (R61). -/
def immOf (cw : Half) : Byte := cw.extractLsb' 0 8

/-- A command word from its two fields (R61). -/
def commandWord (opc imm : Byte) : Half := opc ++ imm

/-- Format Z (R62): `imm` must be 0. -/
def formatZ (imm : Byte) (i : Instr) : Except DecodeError Instr :=
  if imm = 0#8 then .ok i else .error .reservedImmediate

/-- Format M with one modifier bit, `imm[0]` (R62): `imm[7:1]` must be 0. -/
def formatM1 (imm : Byte) (f : Bool → Instr) : Except DecodeError Instr :=
  if imm >>> 1 = 0#8 then .ok (f (imm.getLsbD 0)) else .error .reservedImmediate

/-- Format M with two modifier bits, `imm[0]` = T and `imm[1]` = I (R62): `imm[7:2]` must be 0. -/
def formatM2 (imm : Byte) (f : Bool → Bool → Instr) : Except DecodeError Instr :=
  if imm >>> 2 = 0#8 then .ok (f (imm.getLsbD 0) (imm.getLsbD 1)) else .error .reservedImmediate

/-- The command a word stands for (R63, R70: `opc` first, then `imm`). The reserved `imm` of formats R and B is left to
the command's own rule, as the table's masks have it. -/
def decode (cw : Half) : Except DecodeError Instr :=
  let imm := immOf cw
  match opcOf cw with
  | 0x00#8 => formatZ imm .nop
  | 0x01#8 => formatZ imm .clrerr
  | 0x02#8 => formatZ imm .srst
  | 0x03#8 => .ok (.rdr imm)
  | 0x04#8 => .ok (.wrr imm)
  | 0x05#8 => .ok (.bclr imm)
  | 0x06#8 => .ok (.bpush imm)
  | 0x07#8 => .ok (.brd imm)
  | 0x08#8 => .ok (.blen imm)
  | 0x10#8 => formatZ imm .hclr
  | 0x11#8 => .ok (.hchr imm)
  | 0x12#8 => formatZ imm .hmix
  | 0x20#8 => formatZ imm .cclr
  | 0x21#8 => .ok (.cbyte imm)
  | 0x22#8 => .ok (.cbuf imm)
  | 0x30#8 => formatM1 imm .pki16
  | 0x31#8 => formatM1 imm .pkchr
  | 0x32#8 => formatM2 imm .pkf32
  | 0x33#8 => formatZ imm .pkf24
  | 0x34#8 => formatZ imm .pkstr
  | 0x40#8 => formatM1 imm .upi16
  | 0x41#8 => formatM1 imm .upchr
  | 0x42#8 => formatM2 imm .upf32
  | 0x43#8 => formatZ imm .upf24
  | 0x44#8 => formatZ imm .upstr
  | 0x50#8 => formatM1 imm .fpack
  | 0x51#8 => formatZ imm .funpk
  | 0x52#8 => formatZ imm .rpack
  | 0x53#8 => formatZ imm .runpk
  | _ => .error .reservedOpcode

/-- The modifier byte of a format M command with one bit (R62). -/
def modifier1 (b0 : Bool) : Byte := if b0 then 1#8 else 0#8

/-- The modifier byte of a format M command with two bits: `(I << 1) | T` (R134, R139). -/
def modifier2 (t i : Bool) : Byte := (if i then 2#8 else 0#8) ||| (if t then 1#8 else 0#8)

/-- The command word of a command (R63). -/
def encode (i : Instr) : Half :=
  match i with
  | .nop => commandWord 0x00#8 0#8
  | .clrerr => commandWord 0x01#8 0#8
  | .srst => commandWord 0x02#8 0#8
  | .rdr r => commandWord 0x03#8 r
  | .wrr r => commandWord 0x04#8 r
  | .bclr b => commandWord 0x05#8 b
  | .bpush b => commandWord 0x06#8 b
  | .brd b => commandWord 0x07#8 b
  | .blen b => commandWord 0x08#8 b
  | .hclr => commandWord 0x10#8 0#8
  | .hchr c => commandWord 0x11#8 c
  | .hmix => commandWord 0x12#8 0#8
  | .cclr => commandWord 0x20#8 0#8
  | .cbyte v => commandWord 0x21#8 v
  | .cbuf b => commandWord 0x22#8 b
  | .pki16 s => commandWord 0x30#8 (modifier1 s)
  | .pkchr s => commandWord 0x31#8 (modifier1 s)
  | .pkf32 t x => commandWord 0x32#8 (modifier2 t x)
  | .pkf24 => commandWord 0x33#8 0#8
  | .pkstr => commandWord 0x34#8 0#8
  | .upi16 s => commandWord 0x40#8 (modifier1 s)
  | .upchr s => commandWord 0x41#8 (modifier1 s)
  | .upf32 t x => commandWord 0x42#8 (modifier2 t x)
  | .upf24 => commandWord 0x43#8 0#8
  | .upstr => commandWord 0x44#8 0#8
  | .fpack q => commandWord 0x50#8 (modifier1 q)
  | .funpk => commandWord 0x51#8 0#8
  | .rpack => commandWord 0x52#8 0#8
  | .runpk => commandWord 0x53#8 0#8

/-- The command word in an instruction of `nbits` bits `w`, numbered as spec/opcode_table.json numbers them: every row
has one 16-bit word, and a bit above `nbits` is 0. -/
def tableWord (nbits w : Nat) : Half := BitVec.ofNat 16 (w % 2 ^ nbits)

/-- The command the decoder reads from an instruction whose `nbits` bits are `w`. There is one length, 16 bits (R61),
so a longer instruction is refused. -/
def decodeTableWord (nbits w : Nat) : Option Instr :=
  if nbits ≤ 16 then (decode (tableWord nbits w)).toOption else none

end Sys2Proof
end

