-- ==== Sys2Proof/Config.lean ====
section
/-! DEFINITION. The constants of the block (spec/10_state.md R25: "Not state"), with the values of
spec/00_scope.md R6 (the source's parameters) and R7 (the spec's own decisions). The spec leaves no value open,
so there is no free value here. -/

namespace Sys2Proof.Config

/-- The polynomial of CRC16 and the mixing constant of the hash (R6). -/
def polynomial : Half := 0x8F57#16

/-- `CRC_INIT` (R7, decision D9). -/
def crcInit : Half := 0x0000#16

/-- `MIX_INIT` (R7, decision D10). -/
def mixInit : Half := 0x0000#16

/-- Rounds per byte of CRC16 (R6). -/
def crcRounds : Nat := 8

/-- Rounds per slot of the hash mix: 7, not 16 (R6; spec/90_conflicts.md C1). -/
def mixRounds : Nat := 7

/-- The fill value of an unused name slot (R6). -/
def slotFill : BitVec 7 := 78#7

/-- The space that ends name scanning (R7, decision D12). -/
def charSpace : Byte := 0x20#8

/-- The dot that marks the previous symbol (R7, decision D12). -/
def charDot : Byte := 0x2E#8

/-- The start marker of a RawFrame, `#` (R6, R7). -/
def startMarker : Byte := 0x23#8

/-- The terminator of a RawFrame, carriage return (R6, R7). -/
def endMarker : Byte := 0x0D#8

/-- The byte that stands for nibble 0 (R6). -/
def nibbleBase : Byte := 0x47#8

/-- The byte that stands for nibble 15 (R6). -/
def nibbleTop : Byte := 0x56#8

/-- `PAY_CAP` (R7, decision D5). -/
def payCap : Nat := 15

/-- `FRM_CAP` (R7, decision D5). -/
def frmCap : Nat := 21

/-- `RAW_CAP` (R7, decision D5). -/
def rawCap : Nat := 44

/-- `STR_CAP` (R7, decision D5). -/
def strCap : Nat := 15

/-- The minimum frame length (R6). -/
def minFrame : Nat := 6

end Sys2Proof.Config
end

