-- ==== Sys2Proof/Machine/State.lean ====
section
/-! DEFINITION. The state of the block, as spec/10_state.md R10 lists it (`Block`: "exactly these components"), and
around it the command port of spec/30_encoding.md R60 (`State`), which the host's form of a step needs as data. -/

namespace Sys2Proof.Machine

/-- The slot file `SLOT[0..3]`: four name codes of 7 bits (R19). -/
structure Slots where
  s0 : BitVec 7
  s1 : BitVec 7
  s2 : BitVec 7
  s3 : BitVec 7
  deriving DecidableEq, Repr

/-- The whole state of the block: the components of R10, in its order, and nothing else. -/
structure Block where
  /-- `ADDR`, device address used by FPACK (R11). -/
  addr : BitVec 11
  /-- `HASH`, hash used by FPACK, written by HMIX (R11). -/
  hash : Half
  /-- `VAL`, the value packed and unpacked (R11). -/
  val : Word
  /-- `VTIME`, the time field of IEEE32 (R11). -/
  vtime : Half
  /-- `VIDX`, the index field of IEEE32 (R11). -/
  vidx : Half
  /-- `CFG.AL11`: 11-bit addressing (R16). -/
  al11 : Bool
  /-- `STATUS.EKIND`, kind of the recorded fault (R14). -/
  ekind : BitVec 3
  /-- `STATUS.ECAUSE`, cause of the recorded fault (R14). -/
  ecause : Byte
  /-- `ECMD`, the command word that faulted (R15). -/
  ecmd : Half
  /-- `CRC`, the CRC accumulator (R17). -/
  crc : Half
  /-- `RXADDR` (R18). -/
  rxaddr : BitVec 11
  /-- `RXFLAGS` (R18). -/
  rxflags : Byte
  /-- `RXHASH` (R18). -/
  rxhash : Half
  /-- `RXCRC` (R18). -/
  rxcrc : Half
  /-- `SLOT[0..3]` (R19). -/
  slots : Slots
  /-- `SIDX`, the number of slots filled, 0 to 4 (R20). -/
  sidx : BitVec 3
  /-- `SDONE`, a space has ended name scanning (R20). -/
  sdone : Bool
  /-- `PAY`, the payload (R22). -/
  pay : List Byte
  /-- `STR`, the string in logical order (R22). -/
  str : List Byte
  /-- `FRM`, the Frame bytes (R22). -/
  frm : List Byte
  /-- `RAW`, the RawFrame bytes (R22). -/
  raw : List Byte
  deriving DecidableEq, Repr

/-- The block after reset: the table of R24, whole. -/
def Block.reset : Block where
  addr := 0
  hash := 0
  val := 0
  vtime := 0
  vidx := 0
  al11 := false
  ekind := 0
  ecause := 0
  ecmd := 0
  crc := 0
  rxaddr := 0
  rxflags := 0
  rxhash := 0
  rxcrc := 0
  slots := ⟨Config.slotFill, Config.slotFill, Config.slotFill, Config.slotFill⟩
  sidx := 0
  sdone := false
  pay := []
  str := []
  frm := []
  raw := []

/-- What the host does to the block: one transfer on the command port (R60), or the reset input (R210). -/
inductive HostEvent where
  | reset
  | command (cw : Half) (wdata : Word)
  deriving DecidableEq, Repr

/-- The answer of a command, the port's outputs (R60). -/
structure Response where
  ok : Bool
  rdata : Word
  deriving DecidableEq, Repr

/-- The block and its command port. The fields below `Block` are the MODEL's own (log entries 1 to 3): R10 gives the
block no state beyond `Block`. -/
structure State extends Block where
  /-- What the host has still to present, oldest first (DESIGN CHOICE, log entry 1). -/
  inbox : List HostEvent
  /-- The port signal `cw`: the command word being performed, or performed last (R60; log entry 2). -/
  cw : Half
  /-- The port signal `wdata` that came with it (R60; log entry 2). -/
  wdata : Word
  /-- The answer to the last command; none when no command has been answered since reset (R60; log entry 3). -/
  rsp : Option Response
  deriving DecidableEq, Repr

/-- The machine right after reset (R24, R211), with nothing presented at the port yet. -/
def State.reset : State where
  toBlock := Block.reset
  inbox := []
  cw := 0
  wdata := 0
  rsp := none

/-- Why the machine could stop with a fault: no rule of the spec stops it, so there is no constructor. A fault of the
BLOCK is a command answered `ok = 0` after which the block goes on (R182): a next state, not this (log entry 6). -/
inductive Fault where
  deriving DecidableEq, Repr

/-- Why a command could have no meaning. -/
inductive Refusal where
  /-- The command has no meaning in the model yet. Safe: nothing can be proved of its effect. No arm of `exec` answers
  it: all 29 commands are modelled. -/
  | notModelled (mnemonic : String)
  deriving DecidableEq, Repr

/-- The outcome of one step. -/
abbrev Result := Host.Outcome State Fault Refusal

end Sys2Proof.Machine
end

