-- ==== Sys2Proof/Machine/Flags.lean ====
section
/-! DEFINITION. The fault codes and the status views. The block has no condition codes (spec/10_state.md R13); its
status bits are the fault record `STATUS`, `CFG.AL11` and the scanner's `SIDX` and `SDONE`, and this file says how
they are coded and read. -/

namespace Sys2Proof.Machine

/-- The four kinds of fault (spec/60_exceptions.md R180). -/
inductive Kind where
  | protocolError
  | unpackError
  | callerError
  | illegalCommand
  deriving DecidableEq, Repr

/-- The twenty causes of a fault (R181). -/
inductive Cause where
  | frameTooShort
  | crcMismatch
  | sizeMismatch
  | badStartMarker
  | badEndMarker
  | badNibble
  | oddNibbleCount
  | nameIllegalChar
  | nameTooLong
  | nameDotFirst
  | nameDotTwice
  | badLength
  | bufferOverflow
  | requestWithPayload
  | addressRange
  | operandRange
  | bufferIndex
  | readOnlyRegister
  | reservedOpcode
  | reservedImmediate
  deriving DecidableEq, Repr

/-- The value of `STATUS.EKIND` for a kind (R180). -/
def Kind.code (k : Kind) : BitVec 3 :=
  match k with
  | .protocolError => 1
  | .unpackError => 2
  | .callerError => 3
  | .illegalCommand => 4

/-- The kind a cause belongs to (R181). -/
def Cause.kind (c : Cause) : Kind :=
  match c with
  | .frameTooShort | .crcMismatch | .sizeMismatch => .protocolError
  | .badStartMarker | .badEndMarker | .badNibble | .oddNibbleCount => .protocolError
  | .nameIllegalChar | .nameTooLong | .nameDotFirst | .nameDotTwice => .protocolError
  | .badLength => .unpackError
  | .bufferOverflow | .requestWithPayload | .addressRange => .callerError
  | .operandRange | .bufferIndex | .readOnlyRegister => .callerError
  | .reservedOpcode | .reservedImmediate => .illegalCommand

/-- The value of `STATUS.ECAUSE` for a cause (R181). -/
def Cause.code (c : Cause) : Byte :=
  match c with
  | .frameTooShort => 0x01
  | .crcMismatch => 0x02
  | .sizeMismatch => 0x03
  | .badStartMarker => 0x04
  | .badEndMarker => 0x05
  | .badNibble => 0x06
  | .oddNibbleCount => 0x07
  | .nameIllegalChar => 0x08
  | .nameTooLong => 0x09
  | .nameDotFirst => 0x0A
  | .nameDotTwice => 0x0B
  | .badLength => 0x10
  | .bufferOverflow => 0x20
  | .requestWithPayload => 0x21
  | .addressRange => 0x22
  | .operandRange => 0x23
  | .bufferIndex => 0x24
  | .readOnlyRegister => 0x25
  | .reservedOpcode => 0x30
  | .reservedImmediate => 0x31

/-- An error is pending exactly when `EKIND` is not 0 (R184). -/
def State.errorPending (s : State) : Bool := s.ekind != 0#3

/-- `STATUS` as it is read: `{0b00000, EKIND, ECAUSE}` (spec/10_state.md R14). -/
def State.statusWord (s : State) : Half := 0#5 ++ s.ekind ++ s.ecause

/-- `CFG` as it is read: bit 0 is `AL11` (R16). -/
def State.cfgWord (s : State) : BitVec 1 := BitVec.ofBool s.al11

/-- `HSLOT`: the four slots, `SLOT[0]` lowest, a zero bit above each (R19). -/
def State.hslotWord (s : State) : Word :=
  0#1 ++ s.slots.s3 ++ 0#1 ++ s.slots.s2 ++ 0#1 ++ s.slots.s1 ++ 0#1 ++ s.slots.s0

/-- `HSCAN`: `SIDX` in bits 2:0, `SDONE` in bit 3 (R20). -/
def State.hscanWord (s : State) : BitVec 4 := BitVec.ofBool s.sdone ++ s.sidx

end Sys2Proof.Machine
end

