-- ==== Sys2Proof/Machine/Ops.lean ====
section
/-! DEFINITION. The shared operations: answering at the port, TAKING A FAULT and returning from one, reset, the
buffers, the slot file, and the byte order of multi-byte fields. -/

namespace Sys2Proof.Machine

/-! ### The port (spec/30_encoding.md R60) -/

/-- Answer the command with `ok` and `rdata`. -/
def State.answer (s : State) (ok : Bool) (rdata : Word) : State := { s with rsp := some ⟨ok, rdata⟩ }

/-- The response `rsp(1, 0)` of a command that completes and reads nothing (spec/00_scope.md R8). -/
def State.done (s : State) : State := s.answer true 0#32

/-- The answer `ok = 0`, `rdata = 0` with no change of the block (spec/60_exceptions.md R184). -/
def State.refuse (s : State) : State := s.answer false 0#32

/-- The host presents `cw` and `wdata`; `rest` is what it presents later (R60). -/
def State.accept (s : State) (cw : Half) (wdata : Word) (rest : List HostEvent) : State :=
  { s with inbox := rest, cw := cw, wdata := wdata }

/-- The reset input (spec/70_reset_and_hazards.md R210): the reset state, with what the host presents later kept. -/
def resetInput (rest : List HostEvent) : State := { State.reset with inbox := rest }

/-! ### Taking a fault, and the return from one (spec/60_exceptions.md R182 to R186) -/

/-- Fault entry (R182): `STATUS` takes the kind and the cause, `ECMD` the command word, and the answer is `ok = 0`. -/
def State.record (s : State) (c : Cause) : State :=
  { s with ekind := c.kind.code, ecause := c.code, ecmd := s.cw }.refuse

/-- `raise Kind(Cause)`. With no error pending the fault is recorded (R182); while one is pending the first error is
kept and the command is answered `ok = 0` with no state change (R184, R186). -/
def raise (c : Cause) (s : State) : Result :=
  .next (if s.errorPending then s.refuse else s.record c)

/-- A command that is refused while an error is pending (R184, R187 step 1), and otherwise answers `r`. -/
def unlessPending (s : State) (r : Result) : Result :=
  if s.errorPending then .next s.refuse else r

/-- The return from the error state (R185): `STATUS` and `ECMD` to 0 and nothing else. -/
def State.clearError (s : State) : State := { s with ekind := 0, ecause := 0, ecmd := 0 }

/-- Every component of R10 to its reset value (spec/40_host_access.md R82). -/
def State.softReset (s : State) : State := { s with toBlock := Block.reset }

/-- A word that is no command faults IllegalCommand (spec/30_encoding.md R65, R66). -/
def illegalCommand (e : DecodeError) (s : State) : Result :=
  match e with
  | .reservedOpcode => raise .reservedOpcode s
  | .reservedImmediate => raise .reservedImmediate s

/-! ### Byte order: the more significant byte first (spec/20_memory.md R45) -/

/-- The two bytes of a 16-bit field, `[v[15:8], v[7:0]]`. -/
def halfBytes (v : Half) : List Byte := [v.extractLsb' 8 8, v.extractLsb' 0 8]

/-- The four bytes of a 32-bit field, `[v[31:24], v[23:16], v[15:8], v[7:0]]`. -/
def wordBytes (v : Word) : List Byte :=
  [v.extractLsb' 24 8, v.extractLsb' 16 8, v.extractLsb' 8 8, v.extractLsb' 0 8]

/-- Byte `i` of a buffer's content. Every use is below the length, by the command's own checks; the 0 past the end is
never read. -/
def byteAt (l : List Byte) (i : Nat) : Byte := l.getD i 0#8

/-- The 16-bit field in bytes `i` and `i + 1`: `B[i] : B[i+1]`. -/
def halfAt (l : List Byte) (i : Nat) : Half := byteAt l i ++ byteAt l (i + 1)

/-! ### Buffers (spec/10_state.md R22, spec/20_memory.md R40 to R42) -/

/-- The four buffers, in the order of their identifiers. -/
inductive Buf where
  | pay
  | frm
  | raw
  | str
  deriving DecidableEq, Repr

/-- The capacity of a buffer (R40). -/
def Buf.cap (b : Buf) : Nat :=
  match b with
  | .pay => Config.payCap
  | .frm => Config.frmCap
  | .raw => Config.rawCap
  | .str => Config.strCap

/-- The content of a buffer. -/
def State.buf (s : State) (b : Buf) : List Byte :=
  match b with
  | .pay => s.pay
  | .frm => s.frm
  | .raw => s.raw
  | .str => s.str

/-- `B <- l`: the whole content, and so the length, is replaced (spec/00_scope.md R8). -/
def State.setBuf (s : State) (b : Buf) (l : List Byte) : State :=
  match b with
  | .pay => { s with pay := l }
  | .frm => { s with frm := l }
  | .raw => { s with raw := l }
  | .str => { s with str := l }

/-- `BufRead(b, i)`: byte `i` of the buffer, none at or past its length (R41). -/
def State.bufRead (s : State) (b : Buf) (i : Nat) : Option Byte := (s.buf b)[i]?

/-- `BufPush(b, v)`: the byte becomes the last element (R42). -/
def State.bufPush (s : State) (b : Buf) (v : Byte) : State := s.setBuf b (s.buf b ++ [v])

/-- `BufClr(b)`: the length becomes 0 (R42). -/
def State.bufClr (s : State) (b : Buf) : State := s.setBuf b []

/-- The buffer has no room for another byte (R42). -/
def State.bufFull (s : State) (b : Buf) : Bool := b.cap ≤ (s.buf b).length

/-- The canonical form of the block's storage: no buffer is longer than its capacity (R22). -/
def Memory.wf (s : State) : Bool :=
  s.pay.length ≤ 15 && s.frm.length ≤ 21 && s.raw.length ≤ 44 && s.str.length ≤ 15

/-! ### The slot file (spec/10_state.md R19) -/

/-- `SLOT[i]`. There are four slots; an index past them, which no command forms, reads the fill value. -/
def Slots.get (sl : Slots) (i : Nat) : BitVec 7 :=
  match i with
  | 0 => sl.s0
  | 1 => sl.s1
  | 2 => sl.s2
  | 3 => sl.s3
  | _ => Config.slotFill

/-- `SLOT[i] <- v`. An index past the four slots, which no command forms, writes nothing. -/
def Slots.set (sl : Slots) (i : Nat) (v : BitVec 7) : Slots :=
  match i with
  | 0 => { sl with s0 := v }
  | 1 => { sl with s1 := v }
  | 2 => { sl with s2 := v }
  | 3 => { sl with s3 := v }
  | _ => sl

/-- All four slots at the fill value (spec/41_hash.md R106). -/
def Slots.filled : Slots := ⟨Config.slotFill, Config.slotFill, Config.slotFill, Config.slotFill⟩

end Sys2Proof.Machine
end

