-- ==== Sys2Proof/Machine/Functions.lean ====
section
/-! DEFINITION. The pure functions of the spec: the name hash (spec/41_hash.md R100 to R105), CRC16
(spec/42_crc16.md R120, R121), the Frame bytes (spec/44_frame.md R150 to R153) and the RawFrame bytes
(spec/45_rawframe.md R165, R169). -/

namespace Sys2Proof.Machine

/-! ### Substitution and mixing -/

/-- `Code(c)`: the table code of a character, none where the table has none (R100). -/
def nameCode (c : Byte) : Option (BitVec 7) :=
  if 0x30#8 ≤ c ∧ c ≤ 0x39#8 then some (BitVec.ofNat 7 ((c.toNat - 0x30) * 2))
  else if 0x41#8 ≤ c ∧ c ≤ 0x5A#8 then some (BitVec.ofNat 7 ((10 + (c.toNat - 0x41)) * 2))
  else if 0x61#8 ≤ c ∧ c ≤ 0x7A#8 then some (BitVec.ofNat 7 ((10 + (c.toNat - 0x61)) * 2))
  else if c = 0x2D#8 then some 72#7
  else if c = 0x5F#8 then some 74#7
  else if c = 0x2F#8 then some 76#7
  else none

/-- `Round(acc)` (R102): shift left by one within 16 bits, and XOR the constant when the bit shifted out was 1. -/
def roundOnce (acc : Half) : Half :=
  if acc.getLsbD 15 then (acc <<< 1) ^^^ Config.polynomial else acc <<< 1

/-- `Round`, `n` times. -/
def rounds : Nat → Half → Half
  | 0, acc => acc
  | n + 1, acc => rounds n (roundOnce acc)

/-- `MixStep(acc, code)` (R103): the code into bits 15:9, then 7 rounds. -/
def mixStep (acc : Half) (k : BitVec 7) : Half :=
  rounds Config.mixRounds (acc ^^^ (k.setWidth 16 <<< 9))

/-- `Mix(s0, s1, s2, s3)` (R104): the four slots in order, from `MIX_INIT`. -/
def mix (sl : Slots) : Half :=
  mixStep (mixStep (mixStep (mixStep Config.mixInit sl.s0) sl.s1) sl.s2) sl.s3

/-- The scan of a name as R105 writes it: none is the failure InvalidName. -/
def scanName (sl : Slots) (idx : Nat) (done : Bool) : List Byte → Option Slots
  | [] => some sl
  | c :: cs =>
    if done then scanName sl idx done cs
    else if c = Config.charSpace then scanName sl idx true cs
    else if c = Config.charDot then
      if idx = 0 then none
      else if (sl.get (idx - 1)).getLsbD 0 then none
      else scanName (sl.set (idx - 1) (sl.get (idx - 1) + 1)) idx done cs
    else
      match nameCode c with
      | none => none
      | some k => if idx = 4 then none else scanName (sl.set idx k) (idx + 1) done cs

/-- `Hash(name)` (R105); none is the failure InvalidName. -/
def hashName (name : List Byte) : Option Half := (scanName Slots.filled 0 false name).map mix

/-! ### CRC16 -/

/-- `CrcStep(acc, v)` (R120): the byte into bits 15:8, then 8 rounds. -/
def crcStep (acc : Half) (v : Byte) : Half :=
  rounds Config.crcRounds (acc ^^^ (v.setWidth 16 <<< 8))

/-- `CRC16(bytes)` (R121): the bytes in list order, from `CRC_INIT`. -/
def crc16 (bytes : List Byte) : Half := bytes.foldl crcStep Config.crcInit

/-! ### The Frame -/

/-- Byte 0 of a Frame, the address byte (R152, R153). -/
def addressByte (al11 : Bool) (addr : BitVec 11) : Byte :=
  if al11 then addr.extractLsb' 3 8 else addr.extractLsb' 0 8

/-- Bits 7:5 of byte 1, `ALO` (R151). -/
def addressLow (al11 : Bool) (addr : BitVec 11) : BitVec 3 :=
  if al11 then addr.extractLsb' 0 3 else 0#3

/-- Bits 3:0 of byte 1, `SIZE` (R151): the payload length, 0 for a request. -/
def sizeField (request : Bool) (n : Nat) : BitVec 4 := if request then 0#4 else BitVec.ofNat 4 n

/-- Byte 1 of a Frame, the flags byte (R151). -/
def flagsByte (al11 : Bool) (addr : BitVec 11) (request : Bool) (n : Nat) : Byte :=
  addressLow al11 addr ++ BitVec.ofBool request ++ sizeField request n

/-- The bytes of a Frame before its CRC field (R150, R126). -/
def frameBody (al11 : Bool) (addr : BitVec 11) (hash : Half) (request : Bool) (pay : List Byte) : List Byte :=
  [addressByte al11 addr, flagsByte al11 addr request pay.length] ++ halfBytes hash ++ pay

/-- The bytes a Frame's CRC covers: all but the last two (R126). -/
def covered (frame : List Byte) : List Byte := frame.take (frame.length - 2)

/-- The CRC field of a Frame: its last two bytes (R150). -/
def crcField (frame : List Byte) : Half := halfAt frame (frame.length - 2)

/-- The size field of a Frame, `FRM[1][3:0]` (R151). -/
def frameSize (frame : List Byte) : Nat := ((byteAt frame 1).extractLsb' 0 4).toNat

/-- The address a Frame carries under an addressing mode (R155). -/
def frameAddress (al11 : Bool) (frame : List Byte) : BitVec 11 :=
  if al11 then byteAt frame 0 ++ (byteAt frame 1).extractLsb' 5 3 else (byteAt frame 0).setWidth 11

/-- The payload of a Frame: bytes 4 to `len - 3` (R150). -/
def framePayload (frame : List Byte) : List Byte := (covered frame).drop 4

/-! ### The RawFrame -/

/-- The wire byte of a nibble (R169). -/
def nibbleByte (h : BitVec 4) : Byte := Config.nibbleBase + h.setWidth 8

/-- The two nibble bytes of a Frame byte, the high nibble first (R165). -/
def nibblePair (v : Byte) : List Byte := [nibbleByte (v.extractLsb' 4 4), nibbleByte (v.extractLsb' 0 4)]

/-- The RawFrame of a list of Frame bytes (R165). -/
def rawFrame (frame : List Byte) : List Byte :=
  [Config.startMarker] ++ frame.flatMap nibblePair ++ [Config.endMarker]

/-- A legal nibble byte, `0x47` to `0x56` (R169). -/
def isNibbleByte (v : Byte) : Bool := Config.nibbleBase ≤ v && v ≤ Config.nibbleTop

/-- The bytes between the markers (R167). -/
def betweenMarkers (raw : List Byte) : List Byte := (raw.drop 1).take (raw.length - 2)

/-- The Frame bytes of a list of nibble bytes, pair by pair (R167). -/
def joinNibbles : List Byte → List Byte
  | hi :: lo :: rest => (((hi - Config.nibbleBase) <<< 4) ||| (lo - Config.nibbleBase)) :: joinNibbles rest
  | _ => []

end Sys2Proof.Machine
end

