-- ==== Sys2Proof/Machine/Operands.lean ====
section
/-! DEFINITION. The operand forms of spec/30_encoding.md R62 and R64: register numbers (format R) with the register
file behind them (spec/10_state.md R21), buffer identifiers (format B), and the range checks on `wdata` and `VAL`. -/

namespace Sys2Proof.Machine

/-- The fifteen registers of R21, in the order of their numbers. -/
inductive Reg where
  | status
  | ecmd
  | cfg
  | addr
  | hash
  | crc
  | val
  | vtime
  | vidx
  | rxaddr
  | rxflags
  | rxhash
  | rxcrc
  | hslot
  | hscan
  deriving DecidableEq, Repr

/-- The register a number names; none for the reserved numbers `0x0F` to `0xFF` (R21). -/
def regOf? (r : Byte) : Option Reg :=
  match r with
  | 0x00#8 => some .status
  | 0x01#8 => some .ecmd
  | 0x02#8 => some .cfg
  | 0x03#8 => some .addr
  | 0x04#8 => some .hash
  | 0x05#8 => some .crc
  | 0x06#8 => some .val
  | 0x07#8 => some .vtime
  | 0x08#8 => some .vidx
  | 0x09#8 => some .rxaddr
  | 0x0A#8 => some .rxflags
  | 0x0B#8 => some .rxhash
  | 0x0C#8 => some .rxcrc
  | 0x0D#8 => some .hslot
  | 0x0E#8 => some .hscan
  | _ => none

/-- The width of a register (R21). -/
def Reg.width (r : Reg) : Nat :=
  match r with
  | .status => 16
  | .ecmd => 16
  | .cfg => 1
  | .addr => 11
  | .hash => 16
  | .crc => 16
  | .val => 32
  | .vtime => 16
  | .vidx => 16
  | .rxaddr => 11
  | .rxflags => 8
  | .rxhash => 16
  | .rxcrc => 16
  | .hslot => 32
  | .hscan => 4

/-- The registers WRR may write (R21, spec/40_host_access.md R84). -/
def Reg.writable (r : Reg) : Bool :=
  match r with
  | .cfg | .addr | .hash | .val | .vtime | .vidx => true
  | .status | .ecmd | .crc | .rxaddr | .rxflags | .rxhash | .rxcrc | .hslot | .hscan => false

/-- The value RDR reads: the register, zero-extended to 32 bits (R83). -/
def State.readReg (s : State) (r : Reg) : Word :=
  match r with
  | .status => s.statusWord.setWidth 32
  | .ecmd => s.ecmd.setWidth 32
  | .cfg => s.cfgWord.setWidth 32
  | .addr => s.addr.setWidth 32
  | .hash => s.hash.setWidth 32
  | .crc => s.crc.setWidth 32
  | .val => s.val
  | .vtime => s.vtime.setWidth 32
  | .vidx => s.vidx.setWidth 32
  | .rxaddr => s.rxaddr.setWidth 32
  | .rxflags => s.rxflags.setWidth 32
  | .rxhash => s.rxhash.setWidth 32
  | .rxcrc => s.rxcrc.setWidth 32
  | .hslot => s.hslotWord
  | .hscan => s.hscanWord.setWidth 32

/-- `register r <- v[w-1:0]` for a host-writable register; a read-only one keeps its value (R84). -/
def State.writeReg (s : State) (r : Reg) (v : Word) : State :=
  match r with
  | .cfg => { s with al11 := v.getLsbD 0 }
  | .addr => { s with addr := v.setWidth 11 }
  | .hash => { s with hash := v.setWidth 16 }
  | .val => { s with val := v }
  | .vtime => { s with vtime := v.setWidth 16 }
  | .vidx => { s with vidx := v.setWidth 16 }
  | .status | .ecmd | .crc | .rxaddr | .rxflags | .rxhash | .rxcrc | .hslot | .hscan => s

/-- The buffer an identifier names; none for the reserved identifiers 4 to 255 (spec/20_memory.md R40). -/
def bufOf? (b : Byte) : Option Buf :=
  match b with
  | 0x00#8 => some .pay
  | 0x01#8 => some .frm
  | 0x02#8 => some .raw
  | 0x03#8 => some .str
  | _ => none

/-- A 32-bit value has no bit above its low `w` bits: `v[31:w] = 0` (R84, R86, R132, R133). -/
def fitsUnsigned (w : Nat) (v : Word) : Bool := v >>> w == 0#32

/-- A 32-bit value is the sign extension of its low `w` bits (R132, R133). -/
def fitsSigned (w : Nat) (v : Word) : Bool := v == (v.setWidth w).signExtend 32

/-- The range check of an integer pack: unsigned for S = 0, signed for S = 1 (R132, R133). -/
def fitsInteger (signed : Bool) (w : Nat) (v : Word) : Bool :=
  if signed then fitsSigned w v else fitsUnsigned w v

/-- The extension of an integer unpack to 32 bits: zero for S = 0, sign for S = 1 (R137, R138). -/
def extendInteger {w : Nat} (signed : Bool) (v : BitVec w) : Word :=
  if signed then v.signExtend 32 else v.setWidth 32

end Sys2Proof.Machine
end

