-- ==== Sys2Proof/Machine/Crc.lean ====
section
/-! DEFINITION. The CRC-16 generator CRCU: CCLR, CBYTE, CBUF (spec/42_crc16.md R122 to R124). -/

namespace Sys2Proof.Machine

/-- CCLR (R122). -/
def execCclr (s : State) : Result :=
  unlessPending s (.next { s with crc := Config.crcInit }.done)

/-- CBYTE v (R123): continues from whatever `CRC` holds. -/
def execCbyte (v : Byte) (s : State) : Result :=
  unlessPending s (.next { s with crc := crcStep s.crc v }.done)

/-- CBUF b (R124): the CRC16 of the whole buffer, from `CRC_INIT`. -/
def execCbuf (b : Byte) (s : State) : Result :=
  unlessPending s <|
    match bufOf? b with
    | none => raise .reservedImmediate s
    | some buf => .next { s with crc := crc16 (s.buf buf) }.done

end Sys2Proof.Machine
end

