-- ==== Sys2Proof/Machine/Frame.lean ====
section
/-! DEFINITION. The Frame commands of FRMU: FPACK, FUNPK (spec/44_frame.md R154, R155). -/

namespace Sys2Proof.Machine

/-- FPACK q (R154): RequestWithPayload before AddressRange; the CRC goes to the frame and to `CRC`. -/
def execFpack (request : Bool) (s : State) : Result :=
  unlessPending s <|
    if request && !s.pay.isEmpty then raise .requestWithPayload s
    else if !s.al11 && s.addr.extractLsb' 8 3 != 0#3 then raise .addressRange s
    else
      let body := frameBody s.al11 s.addr s.hash request s.pay
      let c := crc16 body
      .next { s with frm := body ++ halfBytes c, crc := c }.done

/-- FUNPK (R155): FrameTooShort, CrcMismatch, SizeMismatch, in that order; nothing else is checked. -/
def execFunpk (s : State) : Result :=
  unlessPending s <|
    if s.frm.length < Config.minFrame then raise .frameTooShort s
    else if crc16 (covered s.frm) ≠ crcField s.frm then raise .crcMismatch s
    else if frameSize s.frm ≠ s.frm.length - Config.minFrame then raise .sizeMismatch s
    else
      .next { s with
        rxaddr := frameAddress s.al11 s.frm
        rxflags := byteAt s.frm 1
        rxhash := halfAt s.frm 2
        rxcrc := crcField s.frm
        crc := crc16 (covered s.frm)
        pay := framePayload s.frm }.done

end Sys2Proof.Machine
end

