-- ==== Sys2Proof/Machine/Hash.lean ====
section
/-! DEFINITION. The parameter-name hash engine HASHU: HCLR, HCHR, HMIX (spec/41_hash.md R106 to R108). -/

namespace Sys2Proof.Machine

/-- HCLR (R106). `HASH` is not changed. -/
def execHclr (s : State) : Result :=
  unlessPending s (.next { s with slots := Slots.filled, sidx := 0, sdone := false }.done)

/-- HCHR c (R107): the cases (a) to (f), in that order. -/
def execHchr (c : Byte) (s : State) : Result :=
  unlessPending s <|
    if s.sdone then .next s.done
    else if c = Config.charSpace then .next { s with sdone := true }.done
    else if c = Config.charDot then
      if s.sidx = 0#3 then raise .nameDotFirst s
      else
        let i := s.sidx.toNat - 1
        if (s.slots.get i).getLsbD 0 then raise .nameDotTwice s
        else .next { s with slots := s.slots.set i (s.slots.get i + 1#7) }.done
    else
      match nameCode c with
      | none => raise .nameIllegalChar s
      | some k =>
        if s.sidx = 4#3 then raise .nameTooLong s
        else .next { s with slots := s.slots.set s.sidx.toNat k, sidx := s.sidx + 1#3 }.done

/-- HMIX (R108). The scanner is not changed. -/
def execHmix (s : State) : Result :=
  unlessPending s (.next { s with hash := mix s.slots }.done)

end Sys2Proof.Machine
end

