-- ==== Sys2Proof/Machine/HostAccess.lean ====
section
/-! DEFINITION. The host access and system commands: NOP, CLRERR, SRST, RDR, WRR, BCLR, BPUSH, BRD, BLEN
(spec/40_host_access.md R80 to R88). NOP, CLRERR, SRST, RDR, BRD and BLEN run while an error is pending (R184). -/

namespace Sys2Proof.Machine

/-- NOP (R80). -/
def execNop (s : State) : Result := .next s.done

/-- CLRERR (R81). -/
def execClrerr (s : State) : Result := .next s.clearError.done

/-- SRST (R82). -/
def execSrst (s : State) : Result := .next s.softReset.done

/-- RDR r (R83). -/
def execRdr (r : Byte) (s : State) : Result :=
  match regOf? r with
  | none => raise .reservedImmediate s
  | some reg => .next (s.answer true (s.readReg reg))

/-- WRR r (R84): register exists, register writable, value fits, in that order. -/
def execWrr (r : Byte) (s : State) : Result :=
  unlessPending s <|
    match regOf? r with
    | none => raise .reservedImmediate s
    | some reg =>
      if !reg.writable then raise .readOnlyRegister s
      else if !fitsUnsigned reg.width s.wdata then raise .operandRange s
      else .next (s.writeReg reg s.wdata).done

/-- BCLR b (R85). -/
def execBclr (b : Byte) (s : State) : Result :=
  unlessPending s <|
    match bufOf? b with
    | none => raise .reservedImmediate s
    | some buf => .next (s.bufClr buf).done

/-- BPUSH b (R86): the byte is in range, the buffer has room, in that order. -/
def execBpush (b : Byte) (s : State) : Result :=
  unlessPending s <|
    match bufOf? b with
    | none => raise .reservedImmediate s
    | some buf =>
      if !fitsUnsigned 8 s.wdata then raise .operandRange s
      else if s.bufFull buf then raise .bufferOverflow s
      else .next (s.bufPush buf (s.wdata.setWidth 8)).done

/-- BRD b (R87): the index is all 32 bits of `wdata`, unsigned. -/
def execBrd (b : Byte) (s : State) : Result :=
  match bufOf? b with
  | none => raise .reservedImmediate s
  | some buf =>
    match s.bufRead buf s.wdata.toNat with
    | none => raise .bufferIndex s
    | some v => .next (s.answer true (v.setWidth 32))

/-- BLEN b (R88). -/
def execBlen (b : Byte) (s : State) : Result :=
  match bufOf? b with
  | none => raise .reservedImmediate s
  | some buf => .next (s.answer true (BitVec.ofNat 32 (s.buf buf).length))

end Sys2Proof.Machine
end

