-- ==== Sys2Proof/Machine/RawFrame.lean ====
section
/-! DEFINITION. The RawFrame commands of FRMU: RPACK, RUNPK (spec/45_rawframe.md R166, R167). -/

namespace Sys2Proof.Machine

/-- RPACK (R166): encodes whatever bytes `FRM` holds. -/
def execRpack (s : State) : Result :=
  unlessPending s (.next { s with raw := rawFrame s.frm }.done)

/-- RUNPK (R167): BadStartMarker, BadEndMarker, OddNibbleCount, BadNibble, in that order. -/
def execRunpk (s : State) : Result :=
  unlessPending s <|
    if s.raw.head? ≠ some Config.startMarker then raise .badStartMarker s
    else if s.raw.getLast? ≠ some Config.endMarker then raise .badEndMarker s
    else if (s.raw.length - 2) % 2 ≠ 0 then raise .oddNibbleCount s
    else if !(betweenMarkers s.raw).all isNibbleByte then raise .badNibble s
    else .next { s with frm := joinNibbles (betweenMarkers s.raw) }.done

end Sys2Proof.Machine
end

