-- ==== Sys2Proof/Machine/ValuePack.lean ====
section
/-! DEFINITION. The pack commands of the typed value codec VALU: PKI16, PKCHR, PKF32, PKF24, PKSTR
(spec/43_value_codec.md R132 to R136). Each replaces the whole content of `PAY`. -/

namespace Sys2Proof.Machine

/-- PKI16 s (R132): a value out of range faults and is not truncated. -/
def execPki16 (signed : Bool) (s : State) : Result :=
  unlessPending s <|
    if fitsInteger signed 16 s.val then .next { s with pay := halfBytes (s.val.extractLsb' 0 16) }.done
    else raise .operandRange s

/-- PKCHR s (R133). -/
def execPkchr (signed : Bool) (s : State) : Result :=
  unlessPending s <|
    if fitsInteger signed 8 s.val then .next { s with pay := [s.val.extractLsb' 0 8] }.done
    else raise .operandRange s

/-- The payload of an IEEE32 value: the pattern, then the time when T, then the index when I (R134). -/
def float32Payload (time index : Bool) (val : Word) (vtime vidx : Half) : List Byte :=
  wordBytes val ++ (if time then halfBytes vtime else []) ++ (if index then halfBytes vidx else [])

/-- PKF32 ti (R134). -/
def execPkf32 (time index : Bool) (s : State) : Result :=
  unlessPending s (.next { s with pay := float32Payload time index s.val s.vtime s.vidx }.done)

/-- PKF24 (R135): the low byte is dropped, not rounded. -/
def execPkf24 (s : State) : Result :=
  unlessPending s (.next { s with pay := (wordBytes s.val).take 3 }.done)

/-- PKSTR (R136). -/
def execPkstr (s : State) : Result :=
  unlessPending s (.next { s with pay := s.str.reverse }.done)

end Sys2Proof.Machine
end

