-- ==== Sys2Proof/Machine/ValueUnpack.lean ====
section
/-! DEFINITION. The unpack commands of the typed value codec VALU: UPI16, UPCHR, UPF32, UPF24, UPSTR
(spec/43_value_codec.md R137 to R141). `PAY` is never changed, so that a host can inspect it after an UnpackError
(R142). -/

namespace Sys2Proof.Machine

/-- UPI16 s (R137): one byte is zero-padded on the left before the extension. -/
def execUpi16 (signed : Bool) (s : State) : Result :=
  unlessPending s <|
    match s.pay with
    | [lo] => .next { s with val := extendInteger signed (0#8 ++ lo) }.done
    | [hi, lo] => .next { s with val := extendInteger signed (hi ++ lo) }.done
    | _ => raise .badLength s

/-- UPCHR s (R138). -/
def execUpchr (signed : Bool) (s : State) : Result :=
  unlessPending s <|
    match s.pay with
    | [b] => .next { s with val := extendInteger signed b }.done
    | _ => raise .badLength s

/-- The length an IEEE32 payload must have (R139). -/
def float32Length (time index : Bool) : Nat := 4 + 2 * time.toNat + 2 * index.toNat

/-- UPF32 ti (R139): the register of an absent field keeps its value. -/
def execUpf32 (time index : Bool) (s : State) : Result :=
  unlessPending s <|
    if s.pay.length ≠ float32Length time index then raise .badLength s
    else
      .next { s with
        val := halfAt s.pay 0 ++ halfAt s.pay 2
        vtime := if time then halfAt s.pay 4 else s.vtime
        vidx := if index then halfAt s.pay (4 + 2 * time.toNat) else s.vidx }.done

/-- UPF24 (R140): the low byte is 0. -/
def execUpf24 (s : State) : Result :=
  unlessPending s <|
    match s.pay with
    | [b2, b1, b0] => .next { s with val := b2 ++ b1 ++ b0 ++ 0#8 }.done
    | _ => raise .badLength s

/-- UPSTR (R141): any length is accepted. -/
def execUpstr (s : State) : Result :=
  unlessPending s (.next { s with str := s.pay.reverse }.done)

end Sys2Proof.Machine
end

