-- ==== Sys2Proof/Machine/Dispatch.lean ====
section
/-! DEFINITION. One arm per command: its meaning. -/

namespace Sys2Proof.Machine

def exec (i : Instr) (s : State) : Host.Outcome State Fault Refusal :=
  match i with
  | .nop => Sys2Proof.Machine.execNop s
  | .clrerr => Sys2Proof.Machine.execClrerr s
  | .srst => Sys2Proof.Machine.execSrst s
  | .rdr r => Sys2Proof.Machine.execRdr r s
  | .wrr r => Sys2Proof.Machine.execWrr r s
  | .bclr b => Sys2Proof.Machine.execBclr b s
  | .bpush b => Sys2Proof.Machine.execBpush b s
  | .brd b => Sys2Proof.Machine.execBrd b s
  | .blen b => Sys2Proof.Machine.execBlen b s
  | .hclr => Sys2Proof.Machine.execHclr s
  | .hchr c => Sys2Proof.Machine.execHchr c s
  | .hmix => Sys2Proof.Machine.execHmix s
  | .cclr => Sys2Proof.Machine.execCclr s
  | .cbyte v => Sys2Proof.Machine.execCbyte v s
  | .cbuf b => Sys2Proof.Machine.execCbuf b s
  | .pki16 signed => Sys2Proof.Machine.execPki16 signed s
  | .pkchr signed => Sys2Proof.Machine.execPkchr signed s
  | .pkf32 time index => Sys2Proof.Machine.execPkf32 time index s
  | .pkf24 => Sys2Proof.Machine.execPkf24 s
  | .pkstr => Sys2Proof.Machine.execPkstr s
  | .upi16 signed => Sys2Proof.Machine.execUpi16 signed s
  | .upchr signed => Sys2Proof.Machine.execUpchr signed s
  | .upf32 time index => Sys2Proof.Machine.execUpf32 time index s
  | .upf24 => Sys2Proof.Machine.execUpf24 s
  | .upstr => Sys2Proof.Machine.execUpstr s
  | .fpack request => Sys2Proof.Machine.execFpack request s
  | .funpk => Sys2Proof.Machine.execFunpk s
  | .rpack => Sys2Proof.Machine.execRpack s
  | .runpk => Sys2Proof.Machine.execRunpk s

end Sys2Proof.Machine
end

