-- ==== Sys2Proof/Machine/Port.lean ====
section
/-! DEFINITION. The command port (spec/30_encoding.md R60): what one host event does to the block. -/

namespace Sys2Proof.Machine

/-- Perform the command whose word is on the port: decode, then the command's meaning; a word that is no command
faults (R65, R66, R70). -/
def performCommand (s : State) : Result :=
  match decode s.cw with
  | .ok i => exec i s
  | .error e => illegalCommand e s

/-- The oldest host event takes effect (spec/20_memory.md R51). With none presented the block waits: it never acts on
its own, and nothing changes (log entry 4). -/
def takeEvent (s : State) : Result :=
  match s.inbox with
  | [] => .next s
  | .reset :: rest => .next (resetInput rest)
  | .command cw wdata :: rest => performCommand (s.accept cw wdata rest)

/-- The host's next transfer is the instruction whose `nbits` bits are `w`, with write data 0. -/
def presentTableWord (s : State) (nbits w : Nat) : State :=
  { s with inbox := .command (tableWord nbits w) 0 :: s.inbox }

end Sys2Proof.Machine
end

