-- ==== Sys2Proof/Machine/Step.lean ====
section
/-! DEFINITION. One step: the oldest host event at the port takes effect. The block fetches nothing and has no program
counter (spec/10_state.md R12): a command is presented by the host. -/

namespace Sys2Proof.Machine

/-- One step of the machine (spec/20_memory.md R51: the fold of this over what the host presents is the whole model). -/
def step (s : State) : Host.Outcome State Fault Refusal := takeEvent s

/-- The state in which the instruction whose `nbits` bits are `w` is what the host presents next (log entry 5). -/
def State.withFetchWord (s : State) (nbits w : Nat) : State := presentTableWord s nbits w

end Sys2Proof.Machine
end

