-- ==== Sys2Proof/Machine/Pseudo.lean ====
section
/-! DEFINITION. The pseudo-commands of spec/30_encoding.md R69: each an abbreviation of a fixed list of commands, here
the list of transfers the host presents. -/

namespace Sys2Proof.Machine

/-- One transfer of a command (R60); `wdata` is 0 where it is omitted (R69). -/
def transfer (i : Instr) (wdata : Word := 0) : HostEvent := .command (encode i) wdata

/-- `HNAME "c0c1...cn"`: HCLR, one HCHR per character, HMIX. -/
def pseudoHname (name : List Byte) : List HostEvent :=
  transfer .hclr :: name.map (fun c => transfer (.hchr c)) ++ [transfer .hmix]

/-- `BLOAD b, [v0, ..., vn]`: BCLR b, one BPUSH b per byte. -/
def pseudoBload (b : Byte) (vs : List Byte) : List HostEvent :=
  transfer (.bclr b) :: vs.map (fun v => transfer (.bpush b) (v.setWidth 32))

/-- `CRCOF [v0, ..., vn]`: CCLR, one CBYTE per byte. -/
def pseudoCrcof (vs : List Byte) : List HostEvent :=
  transfer .cclr :: vs.map (fun v => transfer (.cbyte v))

end Sys2Proof.Machine
end

