-- ==== Sys2Proof/Safety.lean ====
section
/-! DEFINITION. The terms the claims use: what an answer leaves in the state, a command presented at the port, the
reserved words, and the invariants of the block. They are written from the rules' own tables, not from the meanings,
so that a claim compares the two. -/

namespace Sys2Proof.Machine

/-! ### Answers -/

/-- The command completed with `rdata` and changed nothing else (spec/30_encoding.md R60). -/
def State.completed (s : State) (rdata : Word) : State := { s with rsp := some ⟨true, rdata⟩ }

/-- The command was answered `ok = 0`, `rdata = 0` and changed nothing (spec/60_exceptions.md R184). -/
def State.refused (s : State) : State := { s with rsp := some ⟨false, 0#32⟩ }

/-- The command faulted with this kind and cause, and changed nothing else (R182). -/
def State.failed (s : State) (kind : BitVec 3) (cause : Byte) : State :=
  { s with ekind := kind, ecause := cause, ecmd := s.cw, rsp := some ⟨false, 0#32⟩ }

/-! ### The port -/

/-- The host presents `cw` and `wdata` next (R60). -/
def State.present (s : State) (cw : Half) (wdata : Word) : State :=
  { s with inbox := .command cw wdata :: s.inbox }

/-- `cw` and `wdata` stand on the port. -/
def State.onPort (s : State) (cw : Half) (wdata : Word) : State := { s with cw := cw, wdata := wdata }

/-- The host presents these events next, in this order. -/
def State.presentAll (s : State) (events : List HostEvent) : State := { s with inbox := events ++ s.inbox }

/-! ### Reserved words (spec/30_encoding.md R62, R65, R66) -/

/-- The reserved opcodes, as R65 lists them. -/
def reservedOpcode (opc : Byte) : Bool :=
  (0x09 ≤ opc.toNat && opc.toNat ≤ 0x0F) || (0x13 ≤ opc.toNat && opc.toNat ≤ 0x1F) ||
    (0x23 ≤ opc.toNat && opc.toNat ≤ 0x2F) || (0x35 ≤ opc.toNat && opc.toNat ≤ 0x3F) ||
    (0x45 ≤ opc.toNat && opc.toNat ≤ 0x4F) || 0x54 ≤ opc.toNat

/-- The opcodes of format Z (R62). -/
def opcodesZ : List Byte := [0x00, 0x01, 0x02, 0x10, 0x12, 0x20, 0x33, 0x34, 0x43, 0x44, 0x51, 0x52, 0x53]

/-- The opcodes of format R (R62). -/
def opcodesR : List Byte := [0x03, 0x04]

/-- The opcodes of format B (R62). -/
def opcodesB : List Byte := [0x05, 0x06, 0x07, 0x08, 0x22]

/-- The opcodes of format M with one modifier bit (R62). -/
def opcodesM1 : List Byte := [0x30, 0x31, 0x40, 0x41, 0x50]

/-- The opcodes of format M with two modifier bits (R62). -/
def opcodesM2 : List Byte := [0x32, 0x42]

/-- A word with a defined opcode and an `imm` outside the legal set of its format (R66). -/
def illegalImmediate (cw : Half) : Bool :=
  let opc := opcOf cw
  let imm := (immOf cw).toNat
  (opcodesZ.contains opc && imm != 0) || (opcodesR.contains opc && 0x0E < imm) ||
    (opcodesB.contains opc && 0x03 < imm) || (opcodesM1.contains opc && 1 < imm) ||
    (opcodesM2.contains opc && 3 < imm)

/-- The opcodes of the six commands accepted while an error is pending: NOP, CLRERR, SRST, RDR, BRD, BLEN
(spec/60_exceptions.md R184). -/
def acceptedOpcodes : List Byte := [0x00, 0x01, 0x02, 0x03, 0x07, 0x08]

/-- With no error pending, the words of this opcode with such an `imm` fault IllegalCommand / ReservedImmediate. -/
def FaultsReservedImmediate (opc : Byte) (illegal : Byte → Prop) : Prop :=
  ∀ (s : State) (imm : Byte) (wdata : Word), s.ekind = 0#3 → illegal imm →
    step (s.present (opc ++ imm) wdata) = .next ((s.onPort (opc ++ imm) wdata).failed 4 0x31)

/-- While an error is pending the command is answered `ok = 0` with no state change. -/
def RefusedWhilePending (i : Instr) : Prop :=
  ∀ s : State, s.ekind ≠ 0#3 → exec i s = .next s.refused

/-! ### Views of the state -/

/-- The fifteen registers in the order of their numbers, each zero-extended to 32 bits (spec/10_state.md R14 to
R21). -/
def State.registerView (s : State) : List Word :=
  [0#21 ++ s.ekind ++ s.ecause, 0#16 ++ s.ecmd, 0#31 ++ BitVec.ofBool s.al11, 0#21 ++ s.addr, 0#16 ++ s.hash,
    0#16 ++ s.crc, s.val, 0#16 ++ s.vtime, 0#16 ++ s.vidx, 0#21 ++ s.rxaddr, 0#24 ++ s.rxflags, 0#16 ++ s.rxhash,
    0#16 ++ s.rxcrc, 0#1 ++ s.slots.s3 ++ 0#1 ++ s.slots.s2 ++ 0#1 ++ s.slots.s1 ++ 0#1 ++ s.slots.s0,
    0#28 ++ BitVec.ofBool s.sdone ++ s.sidx]

/-- The four buffers in the order of their identifiers (spec/20_memory.md R40). -/
def State.bufferView (s : State) : List (List Byte) := [s.pay, s.frm, s.raw, s.str]

/-- `SLOT[0..3]` as a list. -/
def Slots.toList (sl : Slots) : List (BitVec 7) := [sl.s0, sl.s1, sl.s2, sl.s3]

/-! ### Invariants -/

/-- What R19 and R20 say of the scanner: `SIDX` is 0 to 4, a filled slot holds 0 to 77, an unfilled one the fill value
78. -/
def ScannerInv (s : State) : Prop :=
  s.sidx.toNat ≤ 4 ∧ ∀ i < 4, if i < s.sidx.toNat then (s.slots.get i).toNat ≤ 77 else s.slots.get i = 78#7

/-- R181, read as a table: the command words that can have raised a fault recorded as this `STATUS`. -/
def raisedBy (status cw : Half) : Bool :=
  let opc := opcOf cw
  let imm := immOf cw
  match status with
  | 0x0101#16 => cw == 0x5100#16
  | 0x0102#16 => cw == 0x5100#16
  | 0x0103#16 => cw == 0x5100#16
  | 0x0104#16 => cw == 0x5300#16
  | 0x0105#16 => cw == 0x5300#16
  | 0x0106#16 => cw == 0x5300#16
  | 0x0107#16 => cw == 0x5300#16
  | 0x0108#16 => opc == 0x11#8 && imm != 0x20#8 && imm != 0x2E#8 && (nameCode imm).isNone
  | 0x0109#16 => opc == 0x11#8 && (nameCode imm).isSome
  | 0x010A#16 => cw == 0x112E#16
  | 0x010B#16 => cw == 0x112E#16
  | 0x0210#16 => [0x4000#16, 0x4001#16, 0x4100#16, 0x4101#16, 0x4200#16, 0x4201#16, 0x4202#16, 0x4203#16, 0x4300#16].contains cw
  | 0x0320#16 => opc == 0x06#8 && imm.toNat ≤ 3
  | 0x0321#16 => cw == 0x5001#16
  | 0x0322#16 => cw == 0x5000#16 || cw == 0x5001#16
  | 0x0323#16 => [0x0402#16, 0x0403#16, 0x0404#16, 0x0407#16, 0x0408#16, 0x3000#16, 0x3001#16, 0x3100#16, 0x3101#16].contains cw ||
      (opc == 0x06#8 && imm.toNat ≤ 3)
  | 0x0324#16 => opc == 0x07#8 && imm.toNat ≤ 3
  | 0x0325#16 => [0x0400#16, 0x0401#16, 0x0405#16, 0x0409#16, 0x040A#16, 0x040B#16, 0x040C#16, 0x040D#16, 0x040E#16].contains cw
  | 0x0430#16 => reservedOpcode opc
  | 0x0431#16 => illegalImmediate cw
  | _ => false

/-- What R14, R15 and R181 say of the error record: with no error pending `ECAUSE` and `ECMD` are 0; with one pending,
`STATUS` is a value of R181's table and `ECMD` a command word that raises it. -/
def RecordInv (s : State) : Prop :=
  if s.ekind = 0#3 then s.ecause = 0#8 ∧ s.ecmd = 0#16
  else raisedBy (0#5 ++ s.ekind ++ s.ecause) s.ecmd = true

end Sys2Proof.Machine
end

