-- ==== Sys2Proof/Certificates/Slice0/Obligations.lean ====
section
/-! DEFINITION. The statements for the provers. A statement about one command says its whole rule: the encoding, the
refusal while an error is pending, the effect as one equation on the state after (so that what does not stand in the
equation is unchanged: every other register, buffer byte and port field), and every fault. -/

open Sys2Proof Sys2Proof.Machine

/-! ### The port and the step -/

/-- 20_memory R51, 30_encoding R60, 70_reset R210: a presented command is decoded and executed with its word and write
data on the port; the reset input gives the reset state (its port fields are the model's choice, log entries 2 and 3);
with nothing presented the block waits (the model's choice, log entry 4). -/
def Obligations.StepTakesTheOldestHostEvent : Prop :=
  (∀ (s : State) (cw : Half) (wdata : Word) (rest : List HostEvent) (i : Instr),
    s.inbox = .command cw wdata :: rest → decode cw = .ok i →
      step s = exec i { s with inbox := rest, cw := cw, wdata := wdata }) ∧
  (∀ (s : State) (rest : List HostEvent), s.inbox = .reset :: rest →
    step s = .next { State.reset with inbox := rest }) ∧
  (∀ s : State, s.inbox = [] → step s = .next s)

/-- 70_reset R210: in every state, also with an error pending. -/
def Obligations.ResetInputAndSrstHaveTheSameEffect : Prop :=
  (∀ (s : State) (rest : List HostEvent), s.inbox = .reset :: rest →
    ∃ t, step s = .next t ∧ t.toBlock = Block.reset) ∧
  (∀ (s : State) (wdata : Word),
    ∃ t, step (s.present 0x0200 wdata) = .next t ∧ t.toBlock = Block.reset)

/-- 10_state R24. -/
def Obligations.ResetStateIsTheTable : Prop :=
  State.reset.addr = 0x000 ∧ State.reset.hash = 0x0000 ∧ State.reset.val = 0x00000000 ∧ State.reset.vtime = 0x0000 ∧
  State.reset.vidx = 0x0000 ∧ State.reset.al11 = false ∧ State.reset.ekind = 0 ∧ State.reset.ecause = 0x00 ∧
  State.reset.ecmd = 0x0000 ∧ State.reset.crc = 0x0000 ∧ State.reset.rxaddr = 0 ∧ State.reset.rxflags = 0 ∧
  State.reset.rxhash = 0 ∧ State.reset.rxcrc = 0 ∧ State.reset.slots = ⟨78, 78, 78, 78⟩ ∧ State.reset.sidx = 0 ∧
  State.reset.sdone = false ∧ State.reset.pay = [] ∧ State.reset.str = [] ∧ State.reset.frm = [] ∧ State.reset.raw = []

/-- 30_encoding R65: the reserved opcodes are those R65 lists (`reservedOpcode`). -/
def Obligations.ReservedOpcodesFault : Prop :=
  (∀ opc : Byte, reservedOpcode opc = true ↔
    ¬ (opc ∈ opcodesZ ∨ opc ∈ opcodesR ∨ opc ∈ opcodesB ∨ opc ∈ opcodesM1 ∨ opc ∈ opcodesM2 ∨
      opc ∈ [0x11#8, 0x21#8])) ∧
  ∀ (s : State) (cw : Half) (wdata : Word), s.ekind = 0#3 → reservedOpcode (opcOf cw) = true →
    step (s.present cw wdata) = .next ((s.onPort cw wdata).failed 4 0x30)

/-- 30_encoding R66, with the formats of R62. -/
def Obligations.ReservedImmediatesFault : Prop :=
  (∀ (s : State) (cw : Half) (wdata : Word), s.ekind = 0#3 → illegalImmediate cw = true →
    step (s.present cw wdata) = .next ((s.onPort cw wdata).failed 4 0x31)) ∧
  (∀ imm : Byte, decode (0x11#8 ++ imm) = .ok (.hchr imm) ∧ decode (0x21#8 ++ imm) = .ok (.cbyte imm))

/-- 60_exceptions R184: the refused words, the six accepted commands, and those of the six that would fault. -/
def Obligations.ErrorPendingAcceptsSixCommands : Prop :=
  ∀ (s : State) (wdata : Word), s.ekind ≠ 0#3 →
    (∀ cw : Half, opcOf cw ∉ acceptedOpcodes → step (s.present cw wdata) = .next (s.onPort cw wdata).refused) ∧
    step (s.present 0x0000 wdata) = .next ((s.onPort 0x0000 wdata).completed 0) ∧
    step (s.present 0x0100 wdata) =
      .next ({ s.onPort 0x0100 wdata with ekind := 0, ecause := 0, ecmd := 0 }.completed 0) ∧
    step (s.present 0x0200 wdata) = .next ({ s.onPort 0x0200 wdata with toBlock := Block.reset }.completed 0) ∧
    (∀ (r : Byte) (v : Word), s.registerView[r.toNat]? = some v →
      step (s.present (0x03#8 ++ r) wdata) = .next ((s.onPort (0x03#8 ++ r) wdata).completed v)) ∧
    (∀ (b : Byte) (l : List Byte) (v : Byte), s.bufferView[b.toNat]? = some l → l[wdata.toNat]? = some v →
      step (s.present (0x07#8 ++ b) wdata) = .next ((s.onPort (0x07#8 ++ b) wdata).completed (0#24 ++ v))) ∧
    (∀ (b : Byte) (l : List Byte), s.bufferView[b.toNat]? = some l →
      step (s.present (0x08#8 ++ b) wdata) =
        .next ((s.onPort (0x08#8 ++ b) wdata).completed (BitVec.ofNat 32 l.length))) ∧
    (∀ cw : Half, opcOf cw ∈ acceptedOpcodes → illegalImmediate cw = true →
      step (s.present cw wdata) = .next (s.onPort cw wdata).refused) ∧
    (∀ (b : Byte) (l : List Byte), s.bufferView[b.toNat]? = some l → l.length ≤ wdata.toNat →
      step (s.present (0x07#8 ++ b) wdata) = .next (s.onPort (0x07#8 ++ b) wdata).refused)

/-- 60_exceptions R185: CLRERR and SRST (and the reset input, R210) are the only ways out of the error state, over
every host event. -/
def Obligations.OnlyClrerrAndResetLeaveTheErrorState : Prop :=
  (∀ s t : State, s.ekind ≠ 0#3 → step s = .next t →
    t.toBlock = s.toBlock ∨
    ((∃ wdata rest, s.inbox = .command 0x0100 wdata :: rest) ∧
      t.toBlock = { s.toBlock with ekind := 0, ecause := 0, ecmd := 0 }) ∨
    (((∃ wdata rest, s.inbox = .command 0x0200 wdata :: rest) ∨ (∃ rest, s.inbox = .reset :: rest)) ∧
      t.toBlock = Block.reset)) ∧
  (∀ (s : State) (wdata : Word),
    step (s.present 0x0100 wdata) =
      .next ({ s.onPort 0x0100 wdata with ekind := 0, ecause := 0, ecmd := 0 }.completed 0) ∧
    step (s.present 0x0200 wdata) = .next ({ s.onPort 0x0200 wdata with toBlock := Block.reset }.completed 0))

/-- 60_exceptions R182: a fault writes `STATUS`, `ECMD` and the answer, and nothing else, whatever the command. -/
def Obligations.FaultsArePrecise : Prop :=
  ∀ (s t : State) (cw : Half) (wdata : Word), s.ekind = 0#3 → step (s.present cw wdata) = .next t →
    (∃ rdata, t.rsp = some ⟨false, rdata⟩) →
    ∃ (kind : BitVec 3) (cause : Byte), kind ≠ 0#3 ∧ t = (s.onPort cw wdata).failed kind cause

/-- 30_encoding R60, 93_implementation_defined U26: every command is answered, `rdata` is 0 whenever `ok = 0` and for
every command but RDR, BRD and BLEN, and one step consumes one transfer. -/
def Obligations.EveryCommandIsAnsweredAtThePort : Prop :=
  ∀ (s : State) (cw : Half) (wdata : Word), ∃ (t : State) (ok : Bool) (rdata : Word),
    step (s.present cw wdata) = .next t ∧ t.rsp = some ⟨ok, rdata⟩ ∧ t.inbox = s.inbox ∧ t.cw = cw ∧
    t.wdata = wdata ∧ (ok = false → rdata = 0#32) ∧ (opcOf cw ∉ [0x03#8, 0x07#8, 0x08#8] → rdata = 0#32)

/-- 93_implementation_defined: "Nothing in this block is `stuck`". -/
def Obligations.EveryStepAnswersANextState : Prop :=
  (∀ s : State, ∃ t, step s = .next t) ∧ ∀ (i : Instr) (s : State), ∃ t, exec i s = .next t

/-- 30_encoding R60, 93_implementation_defined U25: `wdata` is used only by WRR, BPUSH and BRD. -/
def Obligations.OtherCommandsIgnoreWdata : Prop :=
  ∀ (i : Instr) (s t : State) (w : Word), (∀ x, i ≠ .wrr x ∧ i ≠ .bpush x ∧ i ≠ .brd x) → exec i s = .next t →
    exec i { s with wdata := w } = .next { t with wdata := w }

/-- 20_memory R48: a command that completed is idempotent, except BPUSH, CBYTE and HCHR. -/
def Obligations.CompletedCommandsAreIdempotent : Prop :=
  ∀ (i : Instr) (s t : State), (∀ x, i ≠ .bpush x ∧ i ≠ .cbyte x ∧ i ≠ .hchr x) → exec i s = .next t →
    (∃ rdata, t.rsp = some ⟨true, rdata⟩) → exec i t = .next t

/-- 10_state R11, R15 to R20, R22: which commands write which component ("written by"). -/
def Obligations.ComponentsAreWrittenByTheirCommandsOnly : Prop :=
  ∀ (i : Instr) (s t : State), i ≠ .srst → exec i s = .next t →
    (t.addr ≠ s.addr → i = .wrr 0x03) ∧
    (t.hash ≠ s.hash → i = .wrr 0x04 ∨ i = .hmix) ∧
    (t.val ≠ s.val → i = .wrr 0x06 ∨ (∃ x, i = .upi16 x ∨ i = .upchr x) ∨ (∃ x y, i = .upf32 x y) ∨ i = .upf24) ∧
    (t.vtime ≠ s.vtime → i = .wrr 0x07 ∨ ∃ y, i = .upf32 true y) ∧
    (t.vidx ≠ s.vidx → i = .wrr 0x08 ∨ ∃ x, i = .upf32 x true) ∧
    (t.al11 ≠ s.al11 → i = .wrr 0x02) ∧
    (t.crc ≠ s.crc → i = .cclr ∨ (∃ x, i = .cbyte x ∨ i = .cbuf x) ∨ (∃ q, i = .fpack q) ∨ i = .funpk) ∧
    (t.rxaddr ≠ s.rxaddr ∨ t.rxflags ≠ s.rxflags ∨ t.rxhash ≠ s.rxhash ∨ t.rxcrc ≠ s.rxcrc → i = .funpk) ∧
    (t.slots ≠ s.slots ∨ t.sidx ≠ s.sidx ∨ t.sdone ≠ s.sdone → i = .hclr ∨ ∃ c, i = .hchr c) ∧
    (t.ekind ≠ s.ekind ∨ t.ecause ≠ s.ecause ∨ t.ecmd ≠ s.ecmd → i = .clrerr ∨ t.rsp = some ⟨false, 0⟩) ∧
    (t.pay ≠ s.pay → i = .bclr 0 ∨ i = .bpush 0 ∨ (∃ x, i = .pki16 x ∨ i = .pkchr x) ∨ (∃ x y, i = .pkf32 x y) ∨
      i = .pkf24 ∨ i = .pkstr ∨ i = .funpk) ∧
    (t.str ≠ s.str → i = .bclr 3 ∨ i = .bpush 3 ∨ i = .upstr) ∧
    (t.frm ≠ s.frm → i = .bclr 1 ∨ i = .bpush 1 ∨ (∃ q, i = .fpack q) ∨ i = .runpk) ∧
    (t.raw ≠ s.raw → i = .bclr 2 ∨ i = .bpush 2 ∨ i = .rpack)

/-! ### Invariants of every step -/

/-- 10_state R22: no buffer is ever longer than its capacity (15, 21, 44, 15). -/
def Obligations.EveryStepKeepsBuffersInCapacity : Prop :=
  ∀ s t : State, Memory.wf s = true → step s = .next t → Memory.wf t = true

/-- 10_state section 5 (slot file and scanner): `SIDX` is 0 to 4, and every value a slot can hold is 0 to 77 or 78, which
the spec marks [derived]. -/
def Obligations.EveryStepKeepsTheScannerLegal : Prop :=
  ∀ s t : State, ScannerInv s → step s = .next t → ScannerInv t

/-- 60_exceptions R181: the recorded status is always one of the table, and `ECMD` a command that raises it. -/
def Obligations.EveryStepKeepsTheErrorRecordConsistent : Prop :=
  ∀ s t : State, RecordInv s → step s = .next t → RecordInv t

/-- The three invariants hold after reset. -/
def Obligations.ResetMeetsTheInvariants : Prop :=
  Memory.wf State.reset = true ∧ ScannerInv State.reset ∧ RecordInv State.reset

/-! ### Encoding -/

/-- Decoding the encoding of any command gives it back, every operand at every value. -/
def Obligations.DecodeOfEncodeIsTheCommand : Prop :=
  ∀ i : Instr, decode (encode i) = .ok i

/-- No command has two words: a word that decodes is the encoding of what it decodes to. -/
def Obligations.EncodeOfDecodeIsTheWord : Prop :=
  ∀ (cw : Half) (i : Instr), decode cw = .ok i → encode i = cw

/-- Command words written out from 30_encoding R63 and the examples of the families' rules. -/
def Obligations.WordsOfTheSpecDecode : Prop :=
  decode 0x0403 = .ok (.wrr 0x03) ∧ decode 0x0702 = .ok (.brd 0x02) ∧ decode 0x1153 = .ok (.hchr 0x53) ∧
  decode 0x2201 = .ok (.cbuf 0x01) ∧ decode 0x3101 = .ok (.pkchr true) ∧ decode 0x3202 = .ok (.pkf32 false true) ∧
  decode 0x4201 = .ok (.upf32 true false) ∧ decode 0x5001 = .ok (.fpack true) ∧ decode 0x5300 = .ok .runpk

/-! ### Host access -/

/-- 40_host_access R80. -/
def Obligations.NopRule : Prop :=
  encode .nop = 0x0000 ∧ (∀ s : State, exec .nop s = .next (s.completed 0)) ∧
  FaultsReservedImmediate 0x00 (· ≠ 0#8)

/-- 40_host_access R81. -/
def Obligations.ClrerrRule : Prop :=
  encode .clrerr = 0x0100 ∧
  (∀ s : State, exec .clrerr s = .next ({ s with ekind := 0, ecause := 0, ecmd := 0 }.completed 0)) ∧
  FaultsReservedImmediate 0x01 (· ≠ 0#8) ∧
  (∀ (s : State) (imm : Byte) (wdata : Word), s.ekind ≠ 0#3 → imm ≠ 0#8 →
    step (s.present (0x01#8 ++ imm) wdata) = .next (s.onPort (0x01#8 ++ imm) wdata).refused)

/-- 40_host_access R82. -/
def Obligations.SrstRule : Prop :=
  encode .srst = 0x0200 ∧
  (∀ s : State, exec .srst s = .next ({ s with toBlock := Block.reset }.completed 0)) ∧
  FaultsReservedImmediate 0x02 (· ≠ 0#8)

/-- 40_host_access R83, with the register numbers of 10_state R21. -/
def Obligations.RdrRule : Prop :=
  (∀ r : Byte, encode (.rdr r) = 0x03#8 ++ r) ∧
  (∀ (s : State) (r : Byte) (v : Word), s.registerView[r.toNat]? = some v → exec (.rdr r) s = .next (s.completed v)) ∧
  (∀ (s : State) (r : Byte), 0x0E < r.toNat → s.ekind = 0#3 → exec (.rdr r) s = .next (s.failed 4 0x31)) ∧
  (∀ (s : State) (r : Byte), 0x0E < r.toNat → s.ekind ≠ 0#3 → exec (.rdr r) s = .next s.refused)

/-- 40_host_access R84: the checks in its order, the six writable registers, and the nine read-only ones. -/
def Obligations.WrrRule : Prop :=
  (∀ r : Byte, encode (.wrr r) = 0x04#8 ++ r) ∧ (∀ r : Byte, RefusedWhilePending (.wrr r)) ∧
  ∀ s : State, s.ekind = 0#3 →
    (∀ r : Byte, 0x0E < r.toNat → exec (.wrr r) s = .next (s.failed 4 0x31)) ∧
    (∀ r ∈ [0x00#8, 0x01#8, 0x05#8, 0x09#8, 0x0A#8, 0x0B#8, 0x0C#8, 0x0D#8, 0x0E#8],
      exec (.wrr r) s = .next (s.failed 3 0x25)) ∧
    (2 ^ 1 ≤ s.wdata.toNat → exec (.wrr 0x02) s = .next (s.failed 3 0x23)) ∧
    (2 ^ 11 ≤ s.wdata.toNat → exec (.wrr 0x03) s = .next (s.failed 3 0x23)) ∧
    (2 ^ 16 ≤ s.wdata.toNat → ∀ r ∈ [0x04#8, 0x07#8, 0x08#8], exec (.wrr r) s = .next (s.failed 3 0x23)) ∧
    (s.wdata.toNat < 2 ^ 1 →
      exec (.wrr 0x02) s = .next ({ s with al11 := s.wdata.getLsbD 0 }.completed 0)) ∧
    (s.wdata.toNat < 2 ^ 11 →
      exec (.wrr 0x03) s = .next ({ s with addr := s.wdata.extractLsb' 0 11 }.completed 0)) ∧
    (s.wdata.toNat < 2 ^ 16 →
      exec (.wrr 0x04) s = .next ({ s with hash := s.wdata.extractLsb' 0 16 }.completed 0) ∧
      exec (.wrr 0x07) s = .next ({ s with vtime := s.wdata.extractLsb' 0 16 }.completed 0) ∧
      exec (.wrr 0x08) s = .next ({ s with vidx := s.wdata.extractLsb' 0 16 }.completed 0)) ∧
    exec (.wrr 0x06) s = .next ({ s with val := s.wdata }.completed 0)

/-- 40_host_access R85. -/
def Obligations.BclrRule : Prop :=
  (∀ b : Byte, encode (.bclr b) = 0x05#8 ++ b) ∧ (∀ b : Byte, RefusedWhilePending (.bclr b)) ∧
  ∀ s : State, s.ekind = 0#3 →
    (∀ b : Byte, 3 < b.toNat → exec (.bclr b) s = .next (s.failed 4 0x31)) ∧
    exec (.bclr 0) s = .next ({ s with pay := [] }.completed 0) ∧
    exec (.bclr 1) s = .next ({ s with frm := [] }.completed 0) ∧
    exec (.bclr 2) s = .next ({ s with raw := [] }.completed 0) ∧
    exec (.bclr 3) s = .next ({ s with str := [] }.completed 0)

/-- 40_host_access R86: a buffer is full at its capacity (15, 21, 44, 15); longer ones no run reaches. -/
def Obligations.BpushRule : Prop :=
  (∀ b : Byte, encode (.bpush b) = 0x06#8 ++ b) ∧ (∀ b : Byte, RefusedWhilePending (.bpush b)) ∧
  ∀ s : State, s.ekind = 0#3 →
    (∀ b : Byte, 3 < b.toNat → exec (.bpush b) s = .next (s.failed 4 0x31)) ∧
    (∀ b : Byte, b.toNat ≤ 3 → 2 ^ 8 ≤ s.wdata.toNat → exec (.bpush b) s = .next (s.failed 3 0x23)) ∧
    (s.wdata.toNat < 2 ^ 8 →
      (s.pay.length = 15 → exec (.bpush 0) s = .next (s.failed 3 0x20)) ∧
      (s.frm.length = 21 → exec (.bpush 1) s = .next (s.failed 3 0x20)) ∧
      (s.raw.length = 44 → exec (.bpush 2) s = .next (s.failed 3 0x20)) ∧
      (s.str.length = 15 → exec (.bpush 3) s = .next (s.failed 3 0x20)) ∧
      (s.pay.length < 15 →
        exec (.bpush 0) s = .next ({ s with pay := s.pay ++ [s.wdata.extractLsb' 0 8] }.completed 0)) ∧
      (s.frm.length < 21 →
        exec (.bpush 1) s = .next ({ s with frm := s.frm ++ [s.wdata.extractLsb' 0 8] }.completed 0)) ∧
      (s.raw.length < 44 →
        exec (.bpush 2) s = .next ({ s with raw := s.raw ++ [s.wdata.extractLsb' 0 8] }.completed 0)) ∧
      (s.str.length < 15 →
        exec (.bpush 3) s = .next ({ s with str := s.str ++ [s.wdata.extractLsb' 0 8] }.completed 0)))

/-- 40_host_access R87. -/
def Obligations.BrdRule : Prop :=
  (∀ b : Byte, encode (.brd b) = 0x07#8 ++ b) ∧
  (∀ (s : State) (b : Byte) (l : List Byte) (v : Byte), s.bufferView[b.toNat]? = some l →
    l[s.wdata.toNat]? = some v → exec (.brd b) s = .next (s.completed (0#24 ++ v))) ∧
  (∀ (s : State) (b : Byte), s.ekind = 0#3 →
    (3 < b.toNat → exec (.brd b) s = .next (s.failed 4 0x31)) ∧
    (∀ l, s.bufferView[b.toNat]? = some l → l.length ≤ s.wdata.toNat → exec (.brd b) s = .next (s.failed 3 0x24))) ∧
  (∀ (s : State) (b : Byte), s.ekind ≠ 0#3 →
    (3 < b.toNat → exec (.brd b) s = .next s.refused) ∧
    (∀ l, s.bufferView[b.toNat]? = some l → l.length ≤ s.wdata.toNat → exec (.brd b) s = .next s.refused))

/-- 40_host_access R88. -/
def Obligations.BlenRule : Prop :=
  (∀ b : Byte, encode (.blen b) = 0x08#8 ++ b) ∧
  (∀ (s : State) (b : Byte) (l : List Byte), s.bufferView[b.toNat]? = some l →
    exec (.blen b) s = .next (s.completed (BitVec.ofNat 32 l.length))) ∧
  (∀ (s : State) (b : Byte), 3 < b.toNat → s.ekind = 0#3 → exec (.blen b) s = .next (s.failed 4 0x31)) ∧
  (∀ (s : State) (b : Byte), 3 < b.toNat → s.ekind ≠ 0#3 → exec (.blen b) s = .next s.refused)

/-! ### HASHU -/

/-- 41_hash R100: the digits, the letters in both cases, the three signs, and no other byte. -/
def Obligations.NameCodeTable : Prop :=
  (∀ c : Byte, 0x30 ≤ c.toNat → c.toNat ≤ 0x39 → (nameCode c).map BitVec.toNat = some ((c.toNat - 0x30) * 2)) ∧
  (∀ c : Byte, 0x41 ≤ c.toNat → c.toNat ≤ 0x5A → (nameCode c).map BitVec.toNat = some ((10 + (c.toNat - 0x41)) * 2)) ∧
  (∀ c : Byte, 0x61 ≤ c.toNat → c.toNat ≤ 0x7A → (nameCode c).map BitVec.toNat = some ((10 + (c.toNat - 0x61)) * 2)) ∧
  nameCode 0x2D = some 72 ∧ nameCode 0x5F = some 74 ∧ nameCode 0x2F = some 76 ∧
  (∀ c : Byte, ¬ (0x30 ≤ c.toNat ∧ c.toNat ≤ 0x39) → ¬ (0x41 ≤ c.toNat ∧ c.toNat ≤ 0x5A) →
    ¬ (0x61 ≤ c.toNat ∧ c.toNat ≤ 0x7A) → c ≠ 0x2D → c ≠ 0x5F → c ≠ 0x2F → nameCode c = none)

/-- 41_hash R102 to R104 and 42_crc16 R120, R121: the round, seven rounds per slot, eight per byte, both from 0. -/
def Obligations.MixingAndCrcFunctions : Prop :=
  (∀ acc : Half, acc.getLsbD 15 = true → roundOnce acc = (acc <<< 1) ^^^ 0x8F57) ∧
  (∀ acc : Half, acc.getLsbD 15 = false → roundOnce acc = acc <<< 1) ∧
  (∀ (acc : Half) (k : BitVec 7), mixStep acc k = roundOnce (roundOnce (roundOnce (roundOnce (roundOnce (roundOnce
    (roundOnce (acc ^^^ (k ++ 0#9)))))))) ) ∧
  (∀ s0 s1 s2 s3 : BitVec 7, mix ⟨s0, s1, s2, s3⟩ = mixStep (mixStep (mixStep (mixStep 0x0000 s0) s1) s2) s3) ∧
  (∀ (acc : Half) (v : Byte), crcStep acc v = roundOnce (roundOnce (roundOnce (roundOnce (roundOnce (roundOnce
    (roundOnce (roundOnce (acc ^^^ (v ++ 0#8)))))))))) ∧
  crc16 [] = 0x0000 ∧ ∀ (bytes : List Byte) (v : Byte), crc16 (bytes ++ [v]) = crcStep (crc16 bytes) v

/-- 41_hash R106. -/
def Obligations.HclrRule : Prop :=
  encode .hclr = 0x1000 ∧ RefusedWhilePending .hclr ∧ FaultsReservedImmediate 0x10 (· ≠ 0#8) ∧
  ∀ s : State, s.ekind = 0#3 →
    exec .hclr s = .next ({ s with slots := ⟨78, 78, 78, 78⟩, sidx := 0, sdone := false }.completed 0)

/-- 41_hash R107, cases (a) to (f), for every legal `SIDX` (R20: values 0 to 4). -/
def Obligations.HchrRule : Prop :=
  (∀ c : Byte, encode (.hchr c) = 0x11#8 ++ c) ∧ (∀ c : Byte, RefusedWhilePending (.hchr c)) ∧
  (∀ (s : State) (c : Byte), s.ekind = 0#3 → s.sdone = true → exec (.hchr c) s = .next (s.completed 0)) ∧
  ∀ s : State, s.ekind = 0#3 → s.sdone = false → s.sidx.toNat ≤ 4 →
    exec (.hchr 0x20) s = .next ({ s with sdone := true }.completed 0) ∧
    (s.sidx = 0#3 → exec (.hchr 0x2E) s = .next (s.failed 1 0x0A)) ∧
    (∀ (n : Nat) (k : BitVec 7), s.sidx.toNat = n + 1 → s.slots.toList[n]? = some k →
      (k.getLsbD 0 = true → exec (.hchr 0x2E) s = .next (s.failed 1 0x0B)) ∧
      (k.getLsbD 0 = false → ∃ sl : Slots, sl.toList = s.slots.toList.set n (k + 1) ∧
        exec (.hchr 0x2E) s = .next ({ s with slots := sl }.completed 0))) ∧
    (∀ c : Byte, c ≠ 0x20 → c ≠ 0x2E → nameCode c = none → exec (.hchr c) s = .next (s.failed 1 0x08)) ∧
    (∀ (c : Byte) (k : BitVec 7), nameCode c = some k → s.sidx = 4#3 → exec (.hchr c) s = .next (s.failed 1 0x09)) ∧
    (∀ (c : Byte) (k : BitVec 7), nameCode c = some k → s.sidx.toNat < 4 →
      ∃ sl : Slots, sl.toList = s.slots.toList.set s.sidx.toNat k ∧
        exec (.hchr c) s = .next ({ s with slots := sl, sidx := s.sidx + 1 }.completed 0))

/-- 41_hash R108. -/
def Obligations.HmixRule : Prop :=
  encode .hmix = 0x1200 ∧ RefusedWhilePending .hmix ∧ FaultsReservedImmediate 0x12 (· ≠ 0#8) ∧
  (∀ s : State, s.ekind = 0#3 → exec .hmix s = .next ({ s with hash := mix s.slots }.completed 0)) ∧
  mix ⟨78, 78, 78, 78⟩ = 0x1DDE ∧ mix ⟨56, 50, 78, 78⟩ = 0x9107

/-- 41_hash R105, 30_encoding R69: HNAME computes `Hash(name)` for every name, or fails InvalidName with `HASH`
unchanged; the kind is ProtocolError and the cause one of `0x08` to `0x0B`. -/
def Obligations.HnameComputesTheHashOfTheName : Prop :=
  ∀ (s : State) (name : List Byte), s.ekind = 0#3 →
    ∃ t : State, Host.Core.run core (name.length + 2) (s.presentAll (pseudoHname name)) = .next t ∧
      t.inbox = s.inbox ∧
      match hashName name with
      | some h => t.ekind = 0#3 ∧ t.hash = h ∧ t.rsp = some ⟨true, 0⟩
      | none => t.ekind = 1#3 ∧ 0x08 ≤ t.ecause.toNat ∧ t.ecause.toNat ≤ 0x0B ∧ t.hash = s.hash

/-- 41_hash section 4, "Case-insensitive" and "Trailing spaces, and anything after the first space, do not change the
hash", which the spec marks [derived]. -/
def Obligations.HashIgnoresCaseAndTheTailAfterASpace : Prop :=
  (∀ (pre post : List Byte) (c : Byte), 0x41 ≤ c.toNat → c.toNat ≤ 0x5A →
    hashName (pre ++ [c] ++ post) = hashName (pre ++ [c + 0x20] ++ post)) ∧
  (∀ name tail : List Byte, hashName (name ++ [0x20] ++ tail) = hashName name)

/-- 41_hash section 4, the table of names, slots and hashes, whose values the spec marks [derived]. -/
def Obligations.NamesOfTheDocumentHaveTheirHashes : Prop :=
  scanName ⟨78, 78, 78, 78⟩ 0 false [0x53, 0x50] = some ⟨56, 50, 78, 78⟩ ∧ hashName [0x53, 0x50] = some 0x9107 ∧
  scanName ⟨78, 78, 78, 78⟩ 0 false [0x50, 0x56] = some ⟨50, 62, 78, 78⟩ ∧ hashName [0x50, 0x56] = some 0xB8DF ∧
  scanName ⟨78, 78, 78, 78⟩ 0 false [0x72, 0x2D, 0x53] = some ⟨54, 72, 56, 78⟩ ∧
  hashName [0x72, 0x2D, 0x53] = some 0xAF90 ∧
  scanName ⟨78, 78, 78, 78⟩ 0 false [0x64, 0x65, 0x76] = some ⟨26, 28, 62, 78⟩ ∧
  hashName [0x64, 0x65, 0x76] = some 0xD681 ∧
  scanName ⟨78, 78, 78, 78⟩ 0 false [0x76, 0x65, 0x72] = some ⟨62, 28, 54, 78⟩ ∧
  hashName [0x76, 0x65, 0x72] = some 0x2D5B ∧
  scanName ⟨78, 78, 78, 78⟩ 0 false [0x62, 0x70, 0x73] = some ⟨22, 50, 56, 78⟩ ∧
  hashName [0x62, 0x70, 0x73] = some 0xB760

/-! ### CRCU -/

/-- 42_crc16 R122. -/
def Obligations.CclrRule : Prop :=
  encode .cclr = 0x2000 ∧ RefusedWhilePending .cclr ∧ FaultsReservedImmediate 0x20 (· ≠ 0#8) ∧
  ∀ s : State, s.ekind = 0#3 → exec .cclr s = .next ({ s with crc := 0x0000 }.completed 0)

/-- 42_crc16 R123: it goes on from whatever `CRC` holds, so from the CRC16 of a list to that of the list and one more
byte. -/
def Obligations.CbyteRule : Prop :=
  (∀ v : Byte, encode (.cbyte v) = 0x21#8 ++ v) ∧ (∀ v : Byte, RefusedWhilePending (.cbyte v)) ∧
  (∀ (s : State) (v : Byte), s.ekind = 0#3 →
    exec (.cbyte v) s = .next ({ s with crc := crcStep s.crc v }.completed 0)) ∧
  (∀ (s : State) (bytes : List Byte) (v : Byte), s.ekind = 0#3 → s.crc = crc16 bytes →
    exec (.cbyte v) s = .next ({ s with crc := crc16 (bytes ++ [v]) }.completed 0)) ∧
  crcStep 0x0000 0x00 = 0x0000 ∧ crcStep 0x8F57 0x00 = 0xA729 ∧ crcStep 0x0000 0x01 = 0x8F57

/-- 42_crc16 R124. -/
def Obligations.CbufRule : Prop :=
  (∀ b : Byte, encode (.cbuf b) = 0x22#8 ++ b) ∧ (∀ b : Byte, RefusedWhilePending (.cbuf b)) ∧
  ∀ (s : State) (b : Byte), s.ekind = 0#3 →
    (3 < b.toNat → exec (.cbuf b) s = .next (s.failed 4 0x31)) ∧
    (∀ l, s.bufferView[b.toNat]? = some l → exec (.cbuf b) s = .next ({ s with crc := crc16 l }.completed 0))

/-- 42_crc16 R123, 30_encoding R69: CRCOF leaves the CRC16 of the bytes, whatever `CRC` held. -/
def Obligations.CrcofComputesTheCrc16OfTheBytes : Prop :=
  ∀ (s : State) (bytes : List Byte), s.ekind = 0#3 →
    ∃ cw : Half, Host.Core.run core (bytes.length + 1) (s.presentAll (pseudoCrcof bytes)) =
      .next ({ s.onPort cw 0 with crc := crc16 bytes }.completed 0)

/-- 42_crc16 section 3, "Properties, each a check on a model", which the spec marks [derived]: residue, single-byte
corruption, linearity, check value. -/
def Obligations.Crc16ResidueCorruptionAndLinearity : Prop :=
  (∀ b : List Byte, crc16 (b ++ [(crc16 b).extractLsb' 8 8, (crc16 b).extractLsb' 0 8]) = 0x0000) ∧
  (∀ (pre post : List Byte) (x y : Byte), x ≠ y → crc16 (pre ++ [x] ++ post) ≠ crc16 (pre ++ [y] ++ post)) ∧
  (∀ a b : List Byte, a.length = b.length → crc16 (List.zipWith (· ^^^ ·) a b) = crc16 a ^^^ crc16 b) ∧
  crc16 [0x31, 0x32, 0x33, 0x34, 0x35, 0x36, 0x37, 0x38, 0x39] = 0xB581

/-! ### VALU, pack -/

/-- 43_value_codec R132: 0 to 65535 unsigned, -32768 to 32767 signed. -/
def Obligations.Pki16Rule : Prop :=
  encode (.pki16 false) = 0x3000 ∧ encode (.pki16 true) = 0x3001 ∧ (∀ x, RefusedWhilePending (.pki16 x)) ∧
  FaultsReservedImmediate 0x30 (1 < ·.toNat) ∧
  ∀ s : State, s.ekind = 0#3 →
    (65535 < s.val.toNat → exec (.pki16 false) s = .next (s.failed 3 0x23)) ∧
    (s.val.toInt < -32768 ∨ 32767 < s.val.toInt → exec (.pki16 true) s = .next (s.failed 3 0x23)) ∧
    (s.val.toNat ≤ 65535 → exec (.pki16 false) s =
      .next ({ s with pay := [s.val.extractLsb' 8 8, s.val.extractLsb' 0 8] }.completed 0)) ∧
    (-32768 ≤ s.val.toInt → s.val.toInt ≤ 32767 → exec (.pki16 true) s =
      .next ({ s with pay := [s.val.extractLsb' 8 8, s.val.extractLsb' 0 8] }.completed 0))

/-- 43_value_codec R133: 0 to 255 unsigned, -128 to 127 signed. -/
def Obligations.PkchrRule : Prop :=
  encode (.pkchr false) = 0x3100 ∧ encode (.pkchr true) = 0x3101 ∧ (∀ x, RefusedWhilePending (.pkchr x)) ∧
  FaultsReservedImmediate 0x31 (1 < ·.toNat) ∧
  ∀ s : State, s.ekind = 0#3 →
    (255 < s.val.toNat → exec (.pkchr false) s = .next (s.failed 3 0x23)) ∧
    (s.val.toInt < -128 ∨ 127 < s.val.toInt → exec (.pkchr true) s = .next (s.failed 3 0x23)) ∧
    (s.val.toNat ≤ 255 →
      exec (.pkchr false) s = .next ({ s with pay := [s.val.extractLsb' 0 8] }.completed 0)) ∧
    (-128 ≤ s.val.toInt → s.val.toInt ≤ 127 →
      exec (.pkchr true) s = .next ({ s with pay := [s.val.extractLsb' 0 8] }.completed 0))

/-- 43_value_codec R134: time before index. -/
def Obligations.Pkf32Rule : Prop :=
  encode (.pkf32 false false) = 0x3200 ∧ encode (.pkf32 true false) = 0x3201 ∧
  encode (.pkf32 false true) = 0x3202 ∧ encode (.pkf32 true true) = 0x3203 ∧
  (∀ x y, RefusedWhilePending (.pkf32 x y)) ∧ FaultsReservedImmediate 0x32 (3 < ·.toNat) ∧
  ∀ (s : State) (v3 v2 v1 v0 t1 t0 i1 i0 : Byte), s.ekind = 0#3 → s.val = v3 ++ v2 ++ v1 ++ v0 →
    s.vtime = t1 ++ t0 → s.vidx = i1 ++ i0 →
    exec (.pkf32 false false) s = .next ({ s with pay := [v3, v2, v1, v0] }.completed 0) ∧
    exec (.pkf32 true false) s = .next ({ s with pay := [v3, v2, v1, v0, t1, t0] }.completed 0) ∧
    exec (.pkf32 false true) s = .next ({ s with pay := [v3, v2, v1, v0, i1, i0] }.completed 0) ∧
    exec (.pkf32 true true) s = .next ({ s with pay := [v3, v2, v1, v0, t1, t0, i1, i0] }.completed 0)

/-- 43_value_codec R135. -/
def Obligations.Pkf24Rule : Prop :=
  encode .pkf24 = 0x3300 ∧ RefusedWhilePending .pkf24 ∧ FaultsReservedImmediate 0x33 (· ≠ 0#8) ∧
  ∀ (s : State) (v3 v2 v1 v0 : Byte), s.ekind = 0#3 → s.val = v3 ++ v2 ++ v1 ++ v0 →
    exec .pkf24 s = .next ({ s with pay := [v3, v2, v1] }.completed 0)

/-- 43_value_codec R136. -/
def Obligations.PkstrRule : Prop :=
  encode .pkstr = 0x3400 ∧ RefusedWhilePending .pkstr ∧ FaultsReservedImmediate 0x34 (· ≠ 0#8) ∧
  ∀ s : State, s.ekind = 0#3 → ∃ p : List Byte, exec .pkstr s = .next ({ s with pay := p }.completed 0) ∧
    p.length = s.str.length ∧ ∀ i < s.str.length, p[i]? = s.str[s.str.length - 1 - i]?

/-! ### VALU, unpack -/

/-- 43_value_codec R137: one byte is zero-padded on the left, also when signed. -/
def Obligations.Upi16Rule : Prop :=
  encode (.upi16 false) = 0x4000 ∧ encode (.upi16 true) = 0x4001 ∧ (∀ x, RefusedWhilePending (.upi16 x)) ∧
  FaultsReservedImmediate 0x40 (1 < ·.toNat) ∧
  ∀ s : State, s.ekind = 0#3 →
    (∀ x, s.pay.length = 0 ∨ 2 < s.pay.length → exec (.upi16 x) s = .next (s.failed 2 0x10)) ∧
    (∀ x b, s.pay = [b] → exec (.upi16 x) s = .next ({ s with val := 0#24 ++ b }.completed 0)) ∧
    (∀ b1 b0, s.pay = [b1, b0] →
      exec (.upi16 false) s = .next ({ s with val := 0#16 ++ (b1 ++ b0) }.completed 0) ∧
      exec (.upi16 true) s = .next ({ s with val := (b1 ++ b0).signExtend 32 }.completed 0))

/-- 43_value_codec R138. -/
def Obligations.UpchrRule : Prop :=
  encode (.upchr false) = 0x4100 ∧ encode (.upchr true) = 0x4101 ∧ (∀ x, RefusedWhilePending (.upchr x)) ∧
  FaultsReservedImmediate 0x41 (1 < ·.toNat) ∧
  ∀ s : State, s.ekind = 0#3 →
    (∀ x, s.pay.length ≠ 1 → exec (.upchr x) s = .next (s.failed 2 0x10)) ∧
    (∀ b, s.pay = [b] →
      exec (.upchr false) s = .next ({ s with val := 0#24 ++ b }.completed 0) ∧
      exec (.upchr true) s = .next ({ s with val := b.signExtend 32 }.completed 0))

/-- 43_value_codec R139: the register of an absent field keeps its value. -/
def Obligations.Upf32Rule : Prop :=
  encode (.upf32 false false) = 0x4200 ∧ encode (.upf32 true false) = 0x4201 ∧
  encode (.upf32 false true) = 0x4202 ∧ encode (.upf32 true true) = 0x4203 ∧
  (∀ x y, RefusedWhilePending (.upf32 x y)) ∧ FaultsReservedImmediate 0x42 (3 < ·.toNat) ∧
  ∀ s : State, s.ekind = 0#3 →
    (s.pay.length ≠ 4 → exec (.upf32 false false) s = .next (s.failed 2 0x10)) ∧
    (s.pay.length ≠ 6 → exec (.upf32 true false) s = .next (s.failed 2 0x10) ∧
      exec (.upf32 false true) s = .next (s.failed 2 0x10)) ∧
    (s.pay.length ≠ 8 → exec (.upf32 true true) s = .next (s.failed 2 0x10)) ∧
    ∀ v3 v2 v1 v0 x1 x0 y1 y0 : Byte,
      (s.pay = [v3, v2, v1, v0] → exec (.upf32 false false) s =
        .next ({ s with val := v3 ++ v2 ++ v1 ++ v0 }.completed 0)) ∧
      (s.pay = [v3, v2, v1, v0, x1, x0] →
        exec (.upf32 true false) s =
          .next ({ s with val := v3 ++ v2 ++ v1 ++ v0, vtime := x1 ++ x0 }.completed 0) ∧
        exec (.upf32 false true) s =
          .next ({ s with val := v3 ++ v2 ++ v1 ++ v0, vidx := x1 ++ x0 }.completed 0)) ∧
      (s.pay = [v3, v2, v1, v0, x1, x0, y1, y0] → exec (.upf32 true true) s =
        .next ({ s with val := v3 ++ v2 ++ v1 ++ v0, vtime := x1 ++ x0, vidx := y1 ++ y0 }.completed 0))

/-- 43_value_codec R140. -/
def Obligations.Upf24Rule : Prop :=
  encode .upf24 = 0x4300 ∧ RefusedWhilePending .upf24 ∧ FaultsReservedImmediate 0x43 (· ≠ 0#8) ∧
  ∀ s : State, s.ekind = 0#3 →
    (s.pay.length ≠ 3 → exec .upf24 s = .next (s.failed 2 0x10)) ∧
    (∀ b2 b1 b0, s.pay = [b2, b1, b0] →
      exec .upf24 s = .next ({ s with val := b2 ++ b1 ++ b0 ++ 0#8 }.completed 0))

/-- 43_value_codec R141. -/
def Obligations.UpstrRule : Prop :=
  encode .upstr = 0x4400 ∧ RefusedWhilePending .upstr ∧ FaultsReservedImmediate 0x44 (· ≠ 0#8) ∧
  ∀ s : State, s.ekind = 0#3 → ∃ p : List Byte, exec .upstr s = .next ({ s with str := p }.completed 0) ∧
    p.length = s.pay.length ∧ ∀ i < s.pay.length, p[i]? = s.pay[s.pay.length - 1 - i]?

/-- 43_value_codec section 5, "Float24 round trip" and "String round trip", which the spec marks [derived]: Float24
keeps all but the low byte, IEEE32 is exact, a string comes back in both directions. -/
def Obligations.FloatAndStringRoundTrips : Prop :=
  (∀ s t u : State, s.ekind = 0#3 → exec .pkf24 s = .next t → exec .upf24 t = .next u →
    u.val = s.val &&& 0xFFFFFF00 ∧ u.rsp = some ⟨true, 0⟩) ∧
  (∀ (x y : Bool) (s t u : State) (v : Word) (a b : Half), s.ekind = 0#3 → exec (.pkf32 x y) s = .next t →
    exec (.upf32 x y) { t with val := v, vtime := a, vidx := b } = .next u →
    u.rsp = some ⟨true, 0⟩ ∧ u.val = s.val ∧ u.vtime = (if x then s.vtime else a) ∧
    u.vidx = (if y then s.vidx else b)) ∧
  (∀ (s t u : State) (l : List Byte), s.ekind = 0#3 → exec .pkstr s = .next t →
    exec .upstr { t with str := l } = .next u → u.str = s.str) ∧
  (∀ (s t u : State) (l : List Byte), s.ekind = 0#3 → exec .upstr s = .next t →
    exec .pkstr { t with pay := l } = .next u → u.pay = s.pay) ∧
  (∀ l : List Byte, l.reverse.reverse = l)

/-- 43_value_codec section 5, "Integer laws", which the spec marks [derived]: an integer that a pack accepts comes back
from the unpack with the same modifier. -/
def Obligations.IntegerRoundTrips : Prop :=
  ∀ (x : Bool) (s t u : State) (v : Word), s.ekind = 0#3 →
    (exec (.pki16 x) s = .next t → t.rsp = some ⟨true, 0⟩ →
      exec (.upi16 x) { t with val := v } = .next u → u.val = s.val ∧ u.rsp = some ⟨true, 0⟩) ∧
    (exec (.pkchr x) s = .next t → t.rsp = some ⟨true, 0⟩ →
      exec (.upchr x) { t with val := v } = .next u → u.val = s.val ∧ u.rsp = some ⟨true, 0⟩)

/-! ### FRMU -/

/-- 44_frame R154, with the layout of R150 to R153. -/
def Obligations.FpackRule : Prop :=
  encode (.fpack false) = 0x5000 ∧ encode (.fpack true) = 0x5001 ∧ (∀ q, RefusedWhilePending (.fpack q)) ∧
  FaultsReservedImmediate 0x50 (1 < ·.toNat) ∧
  ∀ s : State, s.ekind = 0#3 →
    (s.pay ≠ [] → exec (.fpack true) s = .next (s.failed 3 0x21)) ∧
    (s.al11 = false → 0xFF < s.addr.toNat →
      exec (.fpack false) s = .next (s.failed 3 0x22) ∧
      (s.pay = [] → exec (.fpack true) s = .next (s.failed 3 0x22))) ∧
    ∀ (q : Bool) (b0 : Byte) (alo : BitVec 3) (h1 h0 : Byte), (q = true → s.pay = []) → s.hash = h1 ++ h0 →
      (s.al11 = false ∧ s.addr = 0#3 ++ b0 ∧ alo = 0#3) ∨ (s.al11 = true ∧ s.addr = b0 ++ alo) →
      let size : BitVec 4 := if q then 0#4 else BitVec.ofNat 4 s.pay.length
      let body : List Byte := [b0, alo ++ BitVec.ofBool q ++ size, h1, h0] ++ s.pay
      ∀ c1 c0 : Byte, crc16 body = c1 ++ c0 →
        exec (.fpack q) s = .next ({ s with frm := body ++ [c1, c0], crc := c1 ++ c0 }.completed 0)

/-- 44_frame R155: the three checks in their order, and the fields of an accepted frame. -/
def Obligations.FunpkRule : Prop :=
  encode .funpk = 0x5100 ∧ RefusedWhilePending .funpk ∧ FaultsReservedImmediate 0x51 (· ≠ 0#8) ∧
  ∀ s : State, s.ekind = 0#3 →
    (s.frm.length < 6 → exec .funpk s = .next (s.failed 1 0x01)) ∧
    ∀ (b0 b1 b2 b3 c1 c0 : Byte) (p : List Byte), s.frm = [b0, b1, b2, b3] ++ p ++ [c1, c0] →
      (crc16 ([b0, b1, b2, b3] ++ p) ≠ c1 ++ c0 → exec .funpk s = .next (s.failed 1 0x02)) ∧
      (crc16 ([b0, b1, b2, b3] ++ p) = c1 ++ c0 → b1.toNat % 16 ≠ p.length →
        exec .funpk s = .next (s.failed 1 0x03)) ∧
      (crc16 ([b0, b1, b2, b3] ++ p) = c1 ++ c0 → b1.toNat % 16 = p.length →
        exec .funpk s = .next ({ s with
          rxaddr := if s.al11 then b0 ++ b1.extractLsb' 5 3 else 0#3 ++ b0
          rxflags := b1
          rxhash := b2 ++ b3
          rxcrc := c1 ++ c0
          crc := c1 ++ c0
          pay := p }.completed 0))

/-- 44_frame section 2, "A frame FPACK produced is always accepted by FUNPK under the same CFG", which the spec marks
[derived]. -/
def Obligations.FunpkAcceptsWhatFpackProduced : Prop :=
  ∀ (q : Bool) (s t u : State) (p : List Byte), s.ekind = 0#3 → s.pay.length ≤ 15 → exec (.fpack q) s = .next t →
    t.rsp = some ⟨true, 0⟩ → exec .funpk { t with pay := p } = .next u →
    u.rsp = some ⟨true, 0⟩ ∧ u.rxaddr = s.addr ∧ u.rxhash = s.hash ∧ u.rxflags.getLsbD 4 = q ∧ u.pay = s.pay ∧
    u.rxcrc = t.crc ∧ crc16 t.frm = 0x0000

/-- 45_rawframe R166, with the layout of R165. -/
def Obligations.RpackRule : Prop :=
  encode .rpack = 0x5200 ∧ RefusedWhilePending .rpack ∧ FaultsReservedImmediate 0x52 (· ≠ 0#8) ∧
  ∀ s : State, s.ekind = 0#3 →
    let nibbles : List Byte := s.frm.flatMap (fun v => [0x47#8 + v / 16#8, 0x47#8 + v % 16#8])
    exec .rpack s = .next ({ s with raw := [0x23#8] ++ nibbles ++ [0x0D#8] }.completed 0)

/-- 45_rawframe R167: the four checks in their order, and the bytes of an accepted raw frame. -/
def Obligations.RunpkRule : Prop :=
  encode .runpk = 0x5300 ∧ RefusedWhilePending .runpk ∧ FaultsReservedImmediate 0x53 (· ≠ 0#8) ∧
  ∀ s : State, s.ekind = 0#3 →
    (s.raw.head? ≠ some 0x23 → exec .runpk s = .next (s.failed 1 0x04)) ∧
    (s.raw.head? = some 0x23 → s.raw.getLast? ≠ some 0x0D → exec .runpk s = .next (s.failed 1 0x05)) ∧
    ∀ m : List Byte, s.raw = [0x23] ++ m ++ [0x0D] →
      (m.length % 2 = 1 → exec .runpk s = .next (s.failed 1 0x07)) ∧
      (m.length % 2 = 0 → (∃ v ∈ m, v.toNat < 0x47 ∨ 0x56 < v.toNat) → exec .runpk s = .next (s.failed 1 0x06)) ∧
      (m.length % 2 = 0 → (∀ v ∈ m, 0x47 ≤ v.toNat ∧ v.toNat ≤ 0x56) →
        ∃ f : List Byte, exec .runpk s = .next ({ s with frm := f }.completed 0) ∧ f.length = m.length / 2 ∧
          ∀ (k : Nat) (hi lo : Byte), m[2 * k]? = some hi → m[2 * k + 1]? = some lo →
            f[k]? = some (((hi - 0x47) <<< 4) ||| (lo - 0x47)))

/-- 45_rawframe section 3, "Round trip", which the spec marks [derived]: RPACK then RUNPK gives `FRM` back, whatever it
holds; RUNPK then RPACK gives an accepted `RAW` back. -/
def Obligations.RawFrameRoundTrips : Prop :=
  (∀ (s t u : State) (f : List Byte), s.ekind = 0#3 → exec .rpack s = .next t →
    exec .runpk { t with frm := f } = .next u → u.frm = s.frm ∧ u.rsp = some ⟨true, 0⟩) ∧
  (∀ (s t u : State) (r : List Byte), s.ekind = 0#3 → exec .runpk s = .next t → t.rsp = some ⟨true, 0⟩ →
    exec .rpack { t with raw := r } = .next u → u.raw = s.raw)
end

