-- ==== Sys2Proof/Laws/State.lean ====
section
/-! SUPPORT. What each named update of the state does to each field: one lemma per field, true by rfl. `State` is a
`Block` with port fields, so an update of the port alone is said once for the whole `Block`. -/

namespace Sys2Proof.Machine

variable (s : State)

/-! ### Answers -/

variable (ok : Bool) (rdata : Word)

@[simp] theorem answer_toBlock : (s.answer ok rdata).toBlock = s.toBlock := rfl
@[simp] theorem answer_inbox : (s.answer ok rdata).inbox = s.inbox := rfl
@[simp] theorem answer_cw : (s.answer ok rdata).cw = s.cw := rfl
@[simp] theorem answer_wdata : (s.answer ok rdata).wdata = s.wdata := rfl
@[simp] theorem answer_rsp : (s.answer ok rdata).rsp = some ⟨ok, rdata⟩ := rfl

@[simp] theorem done_toBlock : s.done.toBlock = s.toBlock := rfl
@[simp] theorem done_inbox : s.done.inbox = s.inbox := rfl
@[simp] theorem done_cw : s.done.cw = s.cw := rfl
@[simp] theorem done_wdata : s.done.wdata = s.wdata := rfl
@[simp] theorem done_rsp : s.done.rsp = some ⟨true, 0#32⟩ := rfl

@[simp] theorem refuse_toBlock : s.refuse.toBlock = s.toBlock := rfl
@[simp] theorem refuse_inbox : s.refuse.inbox = s.inbox := rfl
@[simp] theorem refuse_cw : s.refuse.cw = s.cw := rfl
@[simp] theorem refuse_wdata : s.refuse.wdata = s.wdata := rfl
@[simp] theorem refuse_rsp : s.refuse.rsp = some ⟨false, 0#32⟩ := rfl

/-! ### The port -/

variable (cw : Half) (wdata : Word) (rest : List HostEvent)

@[simp] theorem accept_toBlock : (s.accept cw wdata rest).toBlock = s.toBlock := rfl
@[simp] theorem accept_inbox : (s.accept cw wdata rest).inbox = rest := rfl
@[simp] theorem accept_cw : (s.accept cw wdata rest).cw = cw := rfl
@[simp] theorem accept_wdata : (s.accept cw wdata rest).wdata = wdata := rfl
@[simp] theorem accept_rsp : (s.accept cw wdata rest).rsp = s.rsp := rfl

@[simp] theorem resetInput_toBlock : (resetInput rest).toBlock = Block.reset := rfl
@[simp] theorem resetInput_inbox : (resetInput rest).inbox = rest := rfl
@[simp] theorem resetInput_rsp : (resetInput rest).rsp = none := rfl

/-! ### Fault entry and return -/

variable (c : Cause)

@[simp] theorem record_addr : (s.record c).addr = s.addr := rfl
@[simp] theorem record_hash : (s.record c).hash = s.hash := rfl
@[simp] theorem record_val : (s.record c).val = s.val := rfl
@[simp] theorem record_vtime : (s.record c).vtime = s.vtime := rfl
@[simp] theorem record_vidx : (s.record c).vidx = s.vidx := rfl
@[simp] theorem record_al11 : (s.record c).al11 = s.al11 := rfl
@[simp] theorem record_ekind : (s.record c).ekind = c.kind.code := rfl
@[simp] theorem record_ecause : (s.record c).ecause = c.code := rfl
@[simp] theorem record_ecmd : (s.record c).ecmd = s.cw := rfl
@[simp] theorem record_crc : (s.record c).crc = s.crc := rfl
@[simp] theorem record_rxaddr : (s.record c).rxaddr = s.rxaddr := rfl
@[simp] theorem record_rxflags : (s.record c).rxflags = s.rxflags := rfl
@[simp] theorem record_rxhash : (s.record c).rxhash = s.rxhash := rfl
@[simp] theorem record_rxcrc : (s.record c).rxcrc = s.rxcrc := rfl
@[simp] theorem record_slots : (s.record c).slots = s.slots := rfl
@[simp] theorem record_sidx : (s.record c).sidx = s.sidx := rfl
@[simp] theorem record_sdone : (s.record c).sdone = s.sdone := rfl
@[simp] theorem record_pay : (s.record c).pay = s.pay := rfl
@[simp] theorem record_str : (s.record c).str = s.str := rfl
@[simp] theorem record_frm : (s.record c).frm = s.frm := rfl
@[simp] theorem record_raw : (s.record c).raw = s.raw := rfl
@[simp] theorem record_inbox : (s.record c).inbox = s.inbox := rfl
@[simp] theorem record_cw : (s.record c).cw = s.cw := rfl
@[simp] theorem record_wdata : (s.record c).wdata = s.wdata := rfl
@[simp] theorem record_rsp : (s.record c).rsp = some ⟨false, 0#32⟩ := rfl

@[simp] theorem clearError_addr : s.clearError.addr = s.addr := rfl
@[simp] theorem clearError_hash : s.clearError.hash = s.hash := rfl
@[simp] theorem clearError_val : s.clearError.val = s.val := rfl
@[simp] theorem clearError_vtime : s.clearError.vtime = s.vtime := rfl
@[simp] theorem clearError_vidx : s.clearError.vidx = s.vidx := rfl
@[simp] theorem clearError_al11 : s.clearError.al11 = s.al11 := rfl
@[simp] theorem clearError_ekind : s.clearError.ekind = 0 := rfl
@[simp] theorem clearError_ecause : s.clearError.ecause = 0 := rfl
@[simp] theorem clearError_ecmd : s.clearError.ecmd = 0 := rfl
@[simp] theorem clearError_crc : s.clearError.crc = s.crc := rfl
@[simp] theorem clearError_rxaddr : s.clearError.rxaddr = s.rxaddr := rfl
@[simp] theorem clearError_rxflags : s.clearError.rxflags = s.rxflags := rfl
@[simp] theorem clearError_rxhash : s.clearError.rxhash = s.rxhash := rfl
@[simp] theorem clearError_rxcrc : s.clearError.rxcrc = s.rxcrc := rfl
@[simp] theorem clearError_slots : s.clearError.slots = s.slots := rfl
@[simp] theorem clearError_sidx : s.clearError.sidx = s.sidx := rfl
@[simp] theorem clearError_sdone : s.clearError.sdone = s.sdone := rfl
@[simp] theorem clearError_pay : s.clearError.pay = s.pay := rfl
@[simp] theorem clearError_str : s.clearError.str = s.str := rfl
@[simp] theorem clearError_frm : s.clearError.frm = s.frm := rfl
@[simp] theorem clearError_raw : s.clearError.raw = s.raw := rfl
@[simp] theorem clearError_inbox : s.clearError.inbox = s.inbox := rfl
@[simp] theorem clearError_cw : s.clearError.cw = s.cw := rfl
@[simp] theorem clearError_wdata : s.clearError.wdata = s.wdata := rfl
@[simp] theorem clearError_rsp : s.clearError.rsp = s.rsp := rfl

@[simp] theorem softReset_toBlock : s.softReset.toBlock = Block.reset := rfl
@[simp] theorem softReset_inbox : s.softReset.inbox = s.inbox := rfl
@[simp] theorem softReset_cw : s.softReset.cw = s.cw := rfl
@[simp] theorem softReset_wdata : s.softReset.wdata = s.wdata := rfl
@[simp] theorem softReset_rsp : s.softReset.rsp = s.rsp := rfl

/-! ### Buffers -/

variable (l : List Byte)

@[simp] theorem setBuf_pay : s.setBuf .pay l = { s with pay := l } := rfl
@[simp] theorem setBuf_frm : s.setBuf .frm l = { s with frm := l } := rfl
@[simp] theorem setBuf_raw : s.setBuf .raw l = { s with raw := l } := rfl
@[simp] theorem setBuf_str : s.setBuf .str l = { s with str := l } := rfl
@[simp] theorem buf_pay : s.buf .pay = s.pay := rfl
@[simp] theorem buf_frm : s.buf .frm = s.frm := rfl
@[simp] theorem buf_raw : s.buf .raw = s.raw := rfl
@[simp] theorem buf_str : s.buf .str = s.str := rfl

/-- After `B <- l` the buffer holds `l`. -/
@[simp] theorem buf_setBuf_same (b : Buf) : (s.setBuf b l).buf b = l := by cases b <;> rfl

/-- `B <- l` leaves every other buffer. -/
theorem buf_setBuf_other (a b : Buf) (h : a ≠ b) : (s.setBuf b l).buf a = s.buf a := by
  cases a <;> cases b <;> first | rfl | exact absurd rfl h

/-- `B <- l` leaves every register, the scanner, the error record and the port. -/
theorem setBuf_frame (b : Buf) : ∃ pay frm raw str,
    s.setBuf b l = { s with pay := pay, frm := frm, raw := raw, str := str } := by
  cases b
  · exact ⟨l, s.frm, s.raw, s.str, rfl⟩
  · exact ⟨s.pay, l, s.raw, s.str, rfl⟩
  · exact ⟨s.pay, s.frm, l, s.str, rfl⟩
  · exact ⟨s.pay, s.frm, s.raw, l, rfl⟩

/-! ### Registers -/

variable (v : Word)

@[simp] theorem writeReg_cfg : s.writeReg .cfg v = { s with al11 := v.getLsbD 0 } := rfl
@[simp] theorem writeReg_addr : s.writeReg .addr v = { s with addr := v.setWidth 11 } := rfl
@[simp] theorem writeReg_hash : s.writeReg .hash v = { s with hash := v.setWidth 16 } := rfl
@[simp] theorem writeReg_val : s.writeReg .val v = { s with val := v } := rfl
@[simp] theorem writeReg_vtime : s.writeReg .vtime v = { s with vtime := v.setWidth 16 } := rfl
@[simp] theorem writeReg_vidx : s.writeReg .vidx v = { s with vidx := v.setWidth 16 } := rfl

/-- A register WRR may not write keeps its value. -/
theorem writeReg_readOnly (r : Reg) (h : r.writable = false) : s.writeReg r v = s := by
  cases r <;> first | rfl | cases h

end Sys2Proof.Machine
end

