-- ==== Sys2Proof/Laws/Ops.lean ====
section
/-! SUPPORT. What each shared operation can do, said once: the answers of `raise` and `unlessPending`, the decoding of
operands, and the register and buffer views. -/

namespace Sys2Proof.Machine

/-! ### The error record -/

theorem errorPending_false {s : State} : s.errorPending = false ↔ s.ekind = 0#3 := by
  simp [State.errorPending]

theorem errorPending_true {s : State} : s.errorPending = true ↔ s.ekind ≠ 0#3 := by
  simp [State.errorPending]

/-- The kind code of a cause is never 0: a recorded fault is pending (R184). -/
theorem cause_kind_code_ne (c : Cause) : c.kind.code ≠ 0#3 := by cases c <;> decide

/-- A recorded fault, in the terms of the claims. -/
theorem record_eq_failed (s : State) (c : Cause) : s.record c = s.failed c.kind.code c.code := rfl

theorem done_eq_completed (s : State) : s.done = s.completed 0 := rfl

theorem answer_eq_completed (s : State) (v : Word) : s.answer true v = s.completed v := rfl

theorem refuse_eq_refused (s : State) : s.refuse = s.refused := rfl

theorem raise_of_clear {s : State} (c : Cause) (h : s.ekind = 0#3) :
    raise c s = .next (s.failed c.kind.code c.code) := by
  simp [raise, errorPending_false.2 h, record_eq_failed]

theorem raise_of_pending {s : State} (c : Cause) (h : s.ekind ≠ 0#3) : raise c s = .next s.refused := by
  simp [raise, errorPending_true.2 h, refuse_eq_refused]

/-- All that taking a fault can do (R182, R184). -/
theorem raise_answers {s t : State} {c : Cause} (h : raise c s = .next t) :
    (s.ekind ≠ 0#3 ∧ t = s.refused) ∨ (s.ekind = 0#3 ∧ t = s.failed c.kind.code c.code) := by
  by_cases hp : s.ekind = 0#3
  · rw [raise_of_clear c hp] at h
    exact .inr ⟨hp, (Host.Outcome.next.inj h).symm⟩
  · rw [raise_of_pending c hp] at h
    exact .inl ⟨hp, (Host.Outcome.next.inj h).symm⟩

theorem unlessPending_of_clear {s : State} (r : Result) (h : s.ekind = 0#3) : unlessPending s r = r := by
  simp [unlessPending, errorPending_false.2 h]

theorem unlessPending_of_pending {s : State} (r : Result) (h : s.ekind ≠ 0#3) :
    unlessPending s r = .next s.refused := by
  simp [unlessPending, errorPending_true.2 h, refuse_eq_refused]

/-- All that a command refused while an error is pending can do (R184). -/
theorem unlessPending_answers {s t : State} {r : Result} (h : unlessPending s r = .next t) :
    (s.ekind ≠ 0#3 ∧ t = s.refused) ∨ (s.ekind = 0#3 ∧ r = .next t) := by
  by_cases hp : s.ekind = 0#3
  · rw [unlessPending_of_clear r hp] at h
    exact .inr ⟨hp, h⟩
  · rw [unlessPending_of_pending r hp] at h
    exact .inl ⟨hp, (Host.Outcome.next.inj h).symm⟩

/-- A word that is no command takes the fault of its decode error (R65, R66). -/
theorem illegalCommand_eq_raise (e : DecodeError) (s : State) :
    ∃ c, (c = .reservedOpcode ∨ c = .reservedImmediate) ∧ illegalCommand e s = raise c s := by
  cases e
  · exact ⟨.reservedOpcode, .inl rfl, rfl⟩
  · exact ⟨.reservedImmediate, .inr rfl, rfl⟩

/-! ### Operands -/

/-- A number names a register exactly when it is at most `0x0E` (R21). -/
theorem regOf?_eq_none {r : Byte} : regOf? r = none ↔ 0x0E < r.toNat := by
  revert r; decide

/-- The register a number names reads as that entry of the register view (R83). -/
theorem registerView_of_regOf? {s : State} {r : Byte} {reg : Reg} (h : regOf? r = some reg) :
    s.registerView[r.toNat]? = some (s.readReg reg) := by
  unfold regOf? at h
  split at h <;> cases h <;>
    simp [State.registerView, State.readReg, State.statusWord, State.cfgWord, State.hslotWord, State.hscanWord] <;>
    (ext i hi; simp [BitVec.getElem_setWidth]; grind)

/-- An identifier names a buffer exactly when it is at most 3 (R40). -/
theorem bufOf?_eq_none {b : Byte} : bufOf? b = none ↔ 3 < b.toNat := by
  revert b; decide

/-- The buffer an identifier names is that entry of the buffer view (R40). -/
theorem bufferView_of_bufOf? {s : State} {b : Byte} {x : Buf} (h : bufOf? b = some x) :
    s.bufferView[b.toNat]? = some (s.buf x) := by
  unfold bufOf? at h
  split at h <;> cases h <;> rfl

/-- A value fits `w` bits exactly when it is below `2 ^ w` (R84, R86). -/
theorem fitsUnsigned_iff {w : Nat} {v : Word} : fitsUnsigned w v = true ↔ v.toNat < 2 ^ w := by
  simp [fitsUnsigned, ← BitVec.toNat_inj, Nat.shiftRight_eq_div_pow, Nat.div_eq_zero_iff]

/-! ### The slot file -/

/-- `SLOT[i] <- v` on the four slots as a list. -/
theorem toList_set (sl : Slots) (i : Nat) (v : BitVec 7) : (sl.set i v).toList = sl.toList.set i v := by
  rcases i with _ | _ | _ | _ | i <;> rfl

/-- `SLOT[i]` as an entry of the list of the four slots. -/
theorem get_eq_of_toList {sl : Slots} {i : Nat} {v : BitVec 7} (h : sl.toList[i]? = some v) : sl.get i = v := by
  rcases i with _ | _ | _ | _ | i <;> simp_all [Slots.toList, Slots.get]

/-- A slot just written reads back. -/
theorem get_set_same (sl : Slots) {i : Nat} (h : i < 4) (v : BitVec 7) : (sl.set i v).get i = v := by
  rcases i with _ | _ | _ | _ | i <;> first | rfl | omega

/-- A write leaves every other slot. -/
theorem get_set_other (sl : Slots) {i j : Nat} (h : i ≠ j) (v : BitVec 7) : (sl.set i v).get j = sl.get j := by
  rcases i with _ | _ | _ | _ | i <;> rcases j with _ | _ | _ | _ | j <;> first | rfl | exact absurd rfl h

end Sys2Proof.Machine
end

