-- ==== Sys2Proof/Laws/Functions.lean ====
section
/-! SUPPORT. The pure functions: CRC over an appended list, the codes a name symbol can have, byte order, the lengths of
Frames and RawFrames, and the nibble pairs. -/

namespace Sys2Proof.Machine

/-! ### Byte order -/

/-- A 16-bit field is its two bytes joined, the more significant first (R45). -/
theorem half_eq_bytes (v : Half) : v.extractLsb' 8 8 ++ v.extractLsb' 0 8 = v := by
  apply BitVec.eq_of_getLsbD_eq
  intro i hi
  rw [BitVec.getLsbD_append]
  by_cases h : i < 8
  · simp [h]
  · have : i - 8 < 8 := by omega
    simp [h, this, show 8 + (i - 8) = i by omega]

theorem hi_append (a b : Byte) : (a ++ b : Half).extractLsb' 8 8 = a := by
  apply BitVec.eq_of_getLsbD_eq
  intro i hi
  rw [BitVec.getLsbD_extractLsb', BitVec.getLsbD_append]
  simp [hi]

theorem lo_append (a b : Byte) : (a ++ b : Half).extractLsb' 0 8 = b := by
  apply BitVec.eq_of_getLsbD_eq
  intro i hi
  rw [BitVec.getLsbD_extractLsb', BitVec.getLsbD_append]
  simp [hi]

@[simp] theorem halfBytes_append (a b : Byte) : halfBytes (a ++ b) = [a, b] := by
  simp only [halfBytes, hi_append, lo_append]

@[simp] theorem halfBytes_length (v : Half) : (halfBytes v).length = 2 := rfl

@[simp] theorem wordBytes_length (v : Word) : (wordBytes v).length = 4 := rfl

/-! ### CRC16 -/

@[simp] theorem crc16_nil : crc16 [] = 0x0000#16 := rfl

/-- The CRC goes on where the CRC of the prefix stopped (R121). -/
theorem crc16_append (a b : List Byte) : crc16 (a ++ b) = b.foldl crcStep (crc16 a) := by
  simp [crc16, List.foldl_append]

theorem crc16_snoc (a : List Byte) (v : Byte) : crc16 (a ++ [v]) = crcStep (crc16 a) v := by
  simp [crc16_append]

/-! ### Names -/

/-- Every table code is even and at most 76 (R100), so that a dot leaves it at most 77 (R19). -/
theorem nameCode_even_le {c : Byte} {k : BitVec 7} (h : nameCode c = some k) :
    k.toNat ≤ 76 ∧ k.getLsbD 0 = false := by
  have all : ∀ c : Byte, (nameCode c).all (fun k => k.toNat ≤ 76 && !k.getLsbD 0) = true := by decide
  have := all c
  rw [h] at this
  simpa using this

/-- Neither the space nor the dot has a code (R100). -/
theorem nameCode_space_dot : nameCode 0x20#8 = none ∧ nameCode 0x2E#8 = none := by decide

/-! ### Lengths -/

@[simp] theorem frameBody_length (al11 : Bool) (addr : BitVec 11) (hash : Half) (q : Bool) (pay : List Byte) :
    (frameBody al11 addr hash q pay).length = pay.length + 4 := by
  simp [frameBody]; omega

theorem framePayload_length (frame : List Byte) : (framePayload frame).length = frame.length - 6 := by
  simp [framePayload, covered]; omega

@[simp] theorem nibblePair_length (v : Byte) : (nibblePair v).length = 2 := rfl

/-- A RawFrame of `L` bytes of Frame is `2 + 2L` bytes (R165). -/
theorem rawFrame_length (frame : List Byte) : (rawFrame frame).length = 2 + 2 * frame.length := by
  induction frame with
  | nil => rfl
  | cons v frame ih => simp [rawFrame] at *; omega

theorem betweenMarkers_length (raw : List Byte) : (betweenMarkers raw).length = raw.length - 2 := by
  simp [betweenMarkers]; omega

/-- The bytes between two markers. -/
@[simp] theorem betweenMarkers_of (a e : Byte) (m : List Byte) : betweenMarkers (a :: (m ++ [e])) = m := by
  simp [betweenMarkers]

/-- Two nibble bytes make one Frame byte (R167). -/
theorem joinNibbles_length (l : List Byte) : (joinNibbles l).length = l.length / 2 := by
  induction l using joinNibbles.induct with
  | case1 hi lo rest ih => simp [joinNibbles, ih]; omega
  | case2 l h =>
    match l, h with
    | [], _ => rfl
    | [_], _ => simp [joinNibbles]
    | a :: b :: r, h => exact absurd rfl (h a b r)

/-! ### Nibbles -/

/-- A nibble byte is in the legal range (R169). -/
theorem nibbleByte_legal (h : BitVec 4) : isNibbleByte (nibbleByte h) = true := by
  revert h; decide

/-- The nibble pair of a byte joins to the byte (R168). -/
theorem join_nibblePair (v : Byte) :
    ((nibbleByte (v.extractLsb' 4 4) - Config.nibbleBase) <<< 4) |||
      (nibbleByte (v.extractLsb' 0 4) - Config.nibbleBase) = v := by
  revert v; decide

/-- Joining the nibble pairs of a list gives the list back (R168). -/
theorem joinNibbles_pairs (l : List Byte) : joinNibbles (l.flatMap nibblePair) = l := by
  induction l with
  | nil => rfl
  | cons v l ih => simp [nibblePair, joinNibbles, join_nibblePair, List.flatMap_cons] at *; exact ih

end Sys2Proof.Machine
end

