-- ==== Sys2Proof/Laws/Memory.lean ====
section
/-! SUPPORT. The canonical form of the block's storage (`Memory.wf`: no buffer is longer than its capacity, R22) is kept
by every buffer operation, and the reset state has it. -/

namespace Sys2Proof.Machine

/-- The canonical form, buffer by buffer. -/
theorem memory_wf_iff {s : State} :
    Memory.wf s = true ↔ s.pay.length ≤ 15 ∧ s.frm.length ≤ 21 ∧ s.raw.length ≤ 44 ∧ s.str.length ≤ 15 := by
  simp [Memory.wf, and_assoc]

/-- The canonical form, over the buffers. -/
theorem memory_wf_iff_cap {s : State} : Memory.wf s = true ↔ ∀ b : Buf, (s.buf b).length ≤ b.cap := by
  rw [memory_wf_iff]
  constructor
  · rintro ⟨h1, h2, h3, h4⟩ b
    cases b <;> assumption
  · exact fun h => ⟨h .pay, h .frm, h .raw, h .str⟩

/-- Replacing a buffer by content that fits keeps the canonical form. -/
theorem setBuf_keeps_wf {s : State} {b : Buf} {l : List Byte} (h : Memory.wf s = true) (hl : l.length ≤ b.cap) :
    Memory.wf (s.setBuf b l) = true := by
  rw [memory_wf_iff_cap] at *
  intro a
  by_cases hab : a = b
  · subst hab; simpa using hl
  · rw [buf_setBuf_other s l a b hab]; exact h a

/-- BufClr keeps the canonical form. -/
theorem bufClr_keeps_wf {s : State} {b : Buf} (h : Memory.wf s = true) : Memory.wf (s.bufClr b) = true :=
  setBuf_keeps_wf h (Nat.zero_le _)

/-- BufPush into a buffer with room keeps the canonical form (R42). -/
theorem bufPush_keeps_wf {s : State} {b : Buf} {v : Byte} (h : Memory.wf s = true) (room : s.bufFull b = false) :
    Memory.wf (s.bufPush b v) = true := by
  refine setBuf_keeps_wf h ?_
  have : (s.buf b).length < b.cap := by simpa [State.bufFull] using room
  simpa using this

/-- BufPush makes the byte the last element (R42). -/
theorem bufPush_buf (s : State) (b : Buf) (v : Byte) : (s.bufPush b v).buf b = s.buf b ++ [v] := by
  simp [State.bufPush]

/-- BufRead answers exactly below the length (R41). -/
theorem bufRead_eq_none {s : State} {b : Buf} {i : Nat} : s.bufRead b i = none ↔ (s.buf b).length ≤ i := by
  simp [State.bufRead]

theorem bufRead_bufPush_old {s : State} {b : Buf} {v : Byte} {i : Nat} (h : i < (s.buf b).length) :
    (s.bufPush b v).bufRead b i = s.bufRead b i := by
  simp [State.bufRead, bufPush_buf, List.getElem?_append_left h]

/-- The byte pushed reads back at the old length (R42). -/
theorem bufRead_bufPush_new (s : State) (b : Buf) (v : Byte) :
    (s.bufPush b v).bufRead b (s.buf b).length = some v := by
  simp [State.bufRead, bufPush_buf]

/-- A push into one buffer leaves every byte of the others. -/
theorem bufRead_bufPush_other {s : State} {a b : Buf} {v : Byte} (h : a ≠ b) (i : Nat) :
    (s.bufPush b v).bufRead a i = s.bufRead a i := by
  simp only [State.bufRead, State.bufPush, buf_setBuf_other s _ a b h]

/-- The reset storage has the canonical form. -/
theorem reset_memory_canonical : State.reset.pay.length ≤ 15 ∧ State.reset.frm.length ≤ 21 ∧
    State.reset.raw.length ≤ 44 ∧ State.reset.str.length ≤ 15 := by decide

end Sys2Proof.Machine
end

