-- ==== Sys2Proof/Laws/PerInstr.lean ====
section
/-! SUPPORT. Statements for all commands, one lemma per constructor: the encoding of a command matches its row of
spec/opcode_table.json, `cw & mask == match` (spec/30_encoding.md R63). -/

namespace Sys2Proof.Laws

/-- The `mask` of a command's row of the table. -/
def rowMask (i : Instr) : Half :=
  match i with
  | .nop => 0xFFFF#16
  | .clrerr => 0xFFFF#16
  | .srst => 0xFFFF#16
  | .rdr _ => 0xFF00#16
  | .wrr _ => 0xFF00#16
  | .bclr _ => 0xFF00#16
  | .bpush _ => 0xFF00#16
  | .brd _ => 0xFF00#16
  | .blen _ => 0xFF00#16
  | .hclr => 0xFFFF#16
  | .hchr _ => 0xFF00#16
  | .hmix => 0xFFFF#16
  | .cclr => 0xFFFF#16
  | .cbyte _ => 0xFF00#16
  | .cbuf _ => 0xFF00#16
  | .pki16 _ => 0xFFFE#16
  | .pkchr _ => 0xFFFE#16
  | .pkf32 _ _ => 0xFFFC#16
  | .pkf24 => 0xFFFF#16
  | .pkstr => 0xFFFF#16
  | .upi16 _ => 0xFFFE#16
  | .upchr _ => 0xFFFE#16
  | .upf32 _ _ => 0xFFFC#16
  | .upf24 => 0xFFFF#16
  | .upstr => 0xFFFF#16
  | .fpack _ => 0xFFFE#16
  | .funpk => 0xFFFF#16
  | .rpack => 0xFFFF#16
  | .runpk => 0xFFFF#16

/-- The `match` of a command's row of the table. -/
def rowMatch (i : Instr) : Half :=
  match i with
  | .nop => 0x0000#16
  | .clrerr => 0x0100#16
  | .srst => 0x0200#16
  | .rdr _ => 0x0300#16
  | .wrr _ => 0x0400#16
  | .bclr _ => 0x0500#16
  | .bpush _ => 0x0600#16
  | .brd _ => 0x0700#16
  | .blen _ => 0x0800#16
  | .hclr => 0x1000#16
  | .hchr _ => 0x1100#16
  | .hmix => 0x1200#16
  | .cclr => 0x2000#16
  | .cbyte _ => 0x2100#16
  | .cbuf _ => 0x2200#16
  | .pki16 _ => 0x3000#16
  | .pkchr _ => 0x3100#16
  | .pkf32 _ _ => 0x3200#16
  | .pkf24 => 0x3300#16
  | .pkstr => 0x3400#16
  | .upi16 _ => 0x4000#16
  | .upchr _ => 0x4100#16
  | .upf32 _ _ => 0x4200#16
  | .upf24 => 0x4300#16
  | .upstr => 0x4400#16
  | .fpack _ => 0x5000#16
  | .funpk => 0x5100#16
  | .rpack => 0x5200#16
  | .runpk => 0x5300#16

namespace TableRow

/-- The encoding of a command matches its own row of the table (R63). -/
def Statement (i : Instr) : Prop := encode i &&& rowMask i = rowMatch i

/-- A word of `opc` and any `imm`, under the mask of formats D, R and B. -/
theorem commandWord_mask (opc imm : Byte) : commandWord opc imm &&& 0xFF00#16 = opc ++ 0#8 := by
  apply BitVec.eq_of_getLsbD_eq
  intro i hi
  have mask : ∀ j : Fin 16, (0xFF00#16).getLsbD j.val = decide (8 ≤ j.val) := by decide
  rw [commandWord, BitVec.getLsbD_and, mask ⟨i, hi⟩, BitVec.getLsbD_append, BitVec.getLsbD_append]
  by_cases h : i < 8
  · simp [h]
  · simp [h, show 8 ≤ i by omega]

theorem nop : Statement .nop := by unfold Statement; decide
theorem clrerr : Statement .clrerr := by unfold Statement; decide
theorem srst : Statement .srst := by unfold Statement; decide
theorem rdr (r : Byte) : Statement (.rdr r) := commandWord_mask _ r
theorem wrr (r : Byte) : Statement (.wrr r) := commandWord_mask _ r
theorem bclr (b : Byte) : Statement (.bclr b) := commandWord_mask _ b
theorem bpush (b : Byte) : Statement (.bpush b) := commandWord_mask _ b
theorem brd (b : Byte) : Statement (.brd b) := commandWord_mask _ b
theorem blen (b : Byte) : Statement (.blen b) := commandWord_mask _ b
theorem hclr : Statement .hclr := by unfold Statement; decide
theorem hchr (c : Byte) : Statement (.hchr c) := commandWord_mask _ c
theorem hmix : Statement .hmix := by unfold Statement; decide
theorem cclr : Statement .cclr := by unfold Statement; decide
theorem cbyte (v : Byte) : Statement (.cbyte v) := commandWord_mask _ v
theorem cbuf (b : Byte) : Statement (.cbuf b) := commandWord_mask _ b
theorem pki16 (x : Bool) : Statement (.pki16 x) := by
  unfold Statement; revert x; decide
theorem pkchr (x : Bool) : Statement (.pkchr x) := by
  unfold Statement; revert x; decide
theorem pkf32 (x y : Bool) : Statement (.pkf32 x y) := by
  unfold Statement; revert x y; decide
theorem pkf24 : Statement .pkf24 := by unfold Statement; decide
theorem pkstr : Statement .pkstr := by unfold Statement; decide
theorem upi16 (x : Bool) : Statement (.upi16 x) := by
  unfold Statement; revert x; decide
theorem upchr (x : Bool) : Statement (.upchr x) := by
  unfold Statement; revert x; decide
theorem upf32 (x y : Bool) : Statement (.upf32 x y) := by
  unfold Statement; revert x y; decide
theorem upf24 : Statement .upf24 := by unfold Statement; decide
theorem upstr : Statement .upstr := by unfold Statement; decide
theorem fpack (x : Bool) : Statement (.fpack x) := by
  unfold Statement; revert x; decide
theorem funpk : Statement .funpk := by unfold Statement; decide
theorem rpack : Statement .rpack := by unfold Statement; decide
theorem runpk : Statement .runpk := by unfold Statement; decide

end TableRow

end Sys2Proof.Laws
end

