-- ==== Sys2Proof/Tests/Slice0.lean ====
section
/-! SUPPORT. The model's own tests: the well-formedness smoke test, the decoding of a word written out from
spec/30_encoding.md R63 for every command, one or two single-step tests per command with the spec's own expected values
(the test names' rule or vector is in each comment), and the witnesses of the statements' hypotheses. -/

namespace Sys2Proof.Tests

open Sys2Proof.Machine

/-! ### WellFormed: the ill-formed terms (30_encoding R62) -/

theorem test_wf_rdr_reserved_register : (Instr.rdr 0x0F).wellFormed = false := by decide
theorem test_wf_wrr_reserved_register : (Instr.wrr 0xFF).wellFormed = false := by decide
theorem test_wf_bclr_reserved_buffer : (Instr.bclr 0x04).wellFormed = false := by decide
theorem test_wf_bpush_reserved_buffer : (Instr.bpush 0x04).wellFormed = false := by decide
theorem test_wf_brd_reserved_buffer : (Instr.brd 0x80).wellFormed = false := by decide
theorem test_wf_blen_reserved_buffer : (Instr.blen 0x04).wellFormed = false := by decide
theorem test_wf_cbuf_reserved_buffer : (Instr.cbuf 0xFF).wellFormed = false := by decide
theorem test_wf_last_legal : (Instr.rdr 0x0E).wellFormed && (Instr.wrr 0x0E).wellFormed &&
    (Instr.bclr 0x03).wellFormed && (Instr.cbuf 0x03).wellFormed = true := by decide

/-! ### Decoding: the words of 30_encoding R63 and of the examples in 95_test_vectors, bit by bit -/

theorem test_decode_nop : decode 0b00000000_00000000 = .ok .nop := by decide
theorem test_decode_clrerr : decode 0b00000001_00000000 = .ok .clrerr := by decide
theorem test_decode_srst : decode 0b00000010_00000000 = .ok .srst := by decide
theorem test_decode_rdr_hslot : decode 0b00000011_00001101 = .ok (.rdr 0x0D) := by decide
theorem test_decode_wrr_addr : decode 0b00000100_00000011 = .ok (.wrr 0x03) := by decide
theorem test_decode_bclr_raw : decode 0b00000101_00000010 = .ok (.bclr 0x02) := by decide
theorem test_decode_bpush_raw : decode 0b00000110_00000010 = .ok (.bpush 0x02) := by decide
theorem test_decode_brd_pay : decode 0b00000111_00000000 = .ok (.brd 0x00) := by decide
theorem test_decode_blen_str : decode 0b00001000_00000011 = .ok (.blen 0x03) := by decide
theorem test_decode_hclr : decode 0b00010000_00000000 = .ok .hclr := by decide
theorem test_decode_hchr_S : decode 0b00010001_01010011 = .ok (.hchr 0x53) := by decide
theorem test_decode_hmix : decode 0b00010010_00000000 = .ok .hmix := by decide
theorem test_decode_cclr : decode 0b00100000_00000000 = .ok .cclr := by decide
theorem test_decode_cbyte : decode 0b00100001_10000000 = .ok (.cbyte 0x80) := by decide
theorem test_decode_cbuf_frm : decode 0b00100010_00000001 = .ok (.cbuf 0x01) := by decide
theorem test_decode_pki16_signed : decode 0b00110000_00000001 = .ok (.pki16 true) := by decide
theorem test_decode_pkchr : decode 0b00110001_00000000 = .ok (.pkchr false) := by decide
theorem test_decode_pkf32_time : decode 0b00110010_00000001 = .ok (.pkf32 true false) := by decide
theorem test_decode_pkf24 : decode 0b00110011_00000000 = .ok .pkf24 := by decide
theorem test_decode_pkstr : decode 0b00110100_00000000 = .ok .pkstr := by decide
theorem test_decode_upi16 : decode 0b01000000_00000000 = .ok (.upi16 false) := by decide
theorem test_decode_upchr_signed : decode 0b01000001_00000001 = .ok (.upchr true) := by decide
theorem test_decode_upf32_index : decode 0b01000010_00000010 = .ok (.upf32 false true) := by decide
theorem test_decode_upf24 : decode 0b01000011_00000000 = .ok .upf24 := by decide
theorem test_decode_upstr : decode 0b01000100_00000000 = .ok .upstr := by decide
theorem test_decode_fpack_request : decode 0b01010000_00000001 = .ok (.fpack true) := by decide
theorem test_decode_funpk : decode 0b01010001_00000000 = .ok .funpk := by decide
theorem test_decode_rpack : decode 0b01010010_00000000 = .ok .rpack := by decide
theorem test_decode_runpk : decode 0b01010011_00000000 = .ok .runpk := by decide

/-- R65, R66, vectors VD: undefined opcodes and the reserved `imm` of formats Z and M are rejected by name. -/
theorem test_decode_rejects_by_name :
    decode 0x0900 = .error .reservedOpcode ∧ decode 0x5400 = .error .reservedOpcode ∧
    decode 0xFFFF = .error .reservedOpcode ∧ decode 0x0001 = .error .reservedImmediate ∧
    decode 0x3002 = .error .reservedImmediate ∧ decode 0x3204 = .error .reservedImmediate := by decide

/-- The table's numbering: one word of 16 bits, and nothing longer. -/
theorem test_table_word : decodeTableWord 16 0x5001 = some (.fpack true) ∧ decodeTableWord 16 0x6000 = none ∧
    decodeTableWord 32 0x5001 = none := by decide

/-! ### One step of each command, from a small state -/

/-- The state after a command, which always answers one. -/
def after (i : Instr) (s : State) : State :=
  match exec i s with
  | .next t => t
  | .fault _ => s
  | .refused _ => s

/-- The answer of a command: `ok` and `rdata`. -/
def answerOf (i : Instr) (s : State) : Option Response := (after i s).rsp

/-- Reset, with `wdata` on the port. -/
def withData (w : Word) : State := { State.reset with wdata := w }

/-- Reset, with a payload. -/
def withPay (l : List Byte) : State := { State.reset with pay := l }

/-- Reset, with a Frame. -/
def withFrm (l : List Byte) : State := { State.reset with frm := l }

/-- Reset, with a RawFrame. -/
def withRaw (l : List Byte) : State := { State.reset with raw := l }

/-- Reset, with a value, a time and an index (95_test_vectors VV19 to VV22). -/
def withVal (v : Word) : State := { State.reset with val := v, vtime := 0x1234, vidx := 0xABCD }

/-- An error is pending: program P4's UPF32 on the payload `FD`. -/
def failedState : State := { withPay [0xFD] with ekind := 2, ecause := 0x10, ecmd := 0x4200 }

/-- VH1. -/
theorem test_nop : answerOf .nop State.reset = some ⟨true, 0⟩ := by decide
/-- VH24: only STATUS and ECMD are cleared. -/
theorem test_clrerr : (after .clrerr failedState).toBlock = (withPay [0xFD]).toBlock := by decide
/-- VH25. -/
theorem test_srst : (after .srst failedState).toBlock = State.reset.toBlock := by decide
/-- VH3. -/
theorem test_rdr_hslot : answerOf (.rdr 0x0D) State.reset = some ⟨true, 0x4E4E4E4E⟩ := by decide
/-- Accepted while an error is pending (R184). -/
theorem test_rdr_status : answerOf (.rdr 0x00) failedState = some ⟨true, 0x210⟩ := by decide
/-- VH7. -/
theorem test_wrr_addr : (after (.wrr 0x03) (withData 0x7FF)).addr = 0x7FF := by decide
/-- VH8. -/
theorem test_wrr_addr_range : (after (.wrr 0x03) (withData 0x800)).statusWord = 0x0323 := by decide
/-- VH23. -/
theorem test_bclr : (after (.bclr 0x02) (withRaw [0x23, 0x0D])).raw = [] := by decide
/-- VH14. -/
theorem test_bpush : (after (.bpush 0x02) { withRaw [0x23] with wdata := 0x47 }).raw = [0x23, 0x47] := by decide
/-- VH17: a sixteenth byte does not fit. -/
theorem test_bpush_overflow :
    (after (.bpush 0x00) { withPay (List.replicate 15 0) with wdata := 0xEE }).statusWord = 0x0320 := by decide
/-- S6, program P4. -/
theorem test_brd : answerOf (.brd 0x00) failedState = some ⟨true, 0xFD⟩ := by decide
/-- VH22: the index is all 32 bits. -/
theorem test_brd_index : (after (.brd 0x00) (withData 0xFFFFFFFF)).statusWord = 0x0324 := by decide
/-- S6, program P4. -/
theorem test_blen : answerOf (.blen 0x00) failedState = some ⟨true, 1⟩ := by decide
/-- R106. -/
theorem test_hclr : (after .hclr { State.reset with sidx := 3, sdone := true }).hscanWord = 0 := by decide
/-- VN20: `A` is code 20. -/
theorem test_hchr : (after (.hchr 0x41) State.reset).hslotWord = 0x4E4E4E14 := by decide
/-- VN26: a dot after the fourth symbol. -/
theorem test_hchr_dot :
    (after (.hchr 0x2E) { State.reset with slots := ⟨20, 22, 24, 26⟩, sidx := 4 }).hslotWord = 0x1B181614 := by decide
/-- VN1. -/
theorem test_hmix : (after .hmix { State.reset with slots := ⟨56, 50, 78, 78⟩ }).hash = 0x9107 := by decide +kernel
/-- R122. -/
theorem test_cclr : (after .cclr { State.reset with crc := 0x8F57 }).crc = 0x0000 := by decide
/-- VC20: it goes on from what `CRC` holds. -/
theorem test_cbyte : (after (.cbyte 0x00) { State.reset with crc := 0x8F57 }).crc = 0xA729 := by decide +kernel
/-- V1. -/
theorem test_cbuf : (after (.cbuf 0x01) { withFrm [0x01, 0x10, 0x91, 0x07] with crc := 0x1111 }).crc = 0x0C1A := by
  decide +kernel
/-- VV: -2 fits signed and does not fit unsigned. -/
theorem test_pki16_signed : (after (.pki16 true) (withVal 0xFFFFFFFE)).pay = [0xFF, 0xFE] := by decide
theorem test_pki16_unsigned : (after (.pki16 false) (withVal 0xFFFFFFFE)).statusWord = 0x0323 := by decide
/-- VV: 128 does not fit signed. -/
theorem test_pkchr_signed : (after (.pkchr true) (withVal 0x80)).statusWord = 0x0323 := by decide
theorem test_pkchr_unsigned : (after (.pkchr false) (withVal 0xFD)).pay = [0xFD] := by decide
/-- VV22: time before index. -/
theorem test_pkf32 : (after (.pkf32 true true) (withVal 0x41EB3333)).pay =
    [0x41, 0xEB, 0x33, 0x33, 0x12, 0x34, 0xAB, 0xCD] := by decide
/-- VV21: the index alone. -/
theorem test_pkf32_index : (after (.pkf32 false true) (withVal 0x41EB3333)).pay =
    [0x41, 0xEB, 0x33, 0x33, 0xAB, 0xCD] := by decide
/-- S2. -/
theorem test_pkf24 : (after .pkf24 (withVal 0x41EB3333)).pay = [0x41, 0xEB, 0x33] := by decide
/-- VV28. -/
theorem test_pkstr : (after .pkstr { State.reset with str := [0x61, 0x62, 0x63] }).pay = [0x63, 0x62, 0x61] := by decide
/-- VV35: one byte is zero-padded, also when signed. -/
theorem test_upi16_one_byte : (after (.upi16 true) (withPay [0xFD])).val = 0x000000FD := by decide
/-- VV: two bytes are sign-extended. -/
theorem test_upi16_two_bytes : (after (.upi16 true) (withPay [0x80, 0x00])).val = 0xFFFF8000 := by decide
/-- VV42. -/
theorem test_upchr_signed : (after (.upchr true) (withPay [0x80])).val = 0xFFFFFF80 := by decide
theorem test_upchr_length : (after (.upchr false) (withPay [0x01, 0x02])).statusWord = 0x0210 := by decide
/-- VV: six bytes with the index alone. -/
theorem test_upf32_index :
    (after (.upf32 false true) (withPay [0x41, 0xEB, 0x33, 0x33, 0x12, 0x34])).vidx = 0x1234 := by decide
/-- S6: a sensor-fault payload is a BadLength. -/
theorem test_upf32_length : (after (.upf32 false false) (withPay [0xFD])).statusWord = 0x0210 := by decide
/-- VV57. -/
theorem test_upf24 : (after .upf24 (withPay [0x41, 0xEB, 0x33])).val = 0x41EB3300 := by decide
/-- VV62. -/
theorem test_upstr : (after .upstr (withPay [0x61, 0x62, 0x63])).str = [0x63, 0x62, 0x61] := by decide
/-- V1, S1. -/
theorem test_fpack_request : (after (.fpack true) { State.reset with addr := 0x001, hash := 0x9107 }).frm =
    [0x01, 0x10, 0x91, 0x07, 0x0C, 0x1A] := by decide +kernel
/-- VF: 11-bit addressing. -/
theorem test_fpack_al11 : (after (.fpack true) { State.reset with al11 := true, addr := 0x2A5, hash := 0x9107 }).frm =
    [0x54, 0xB0, 0x91, 0x07, 0x41, 0x66] := by decide +kernel
/-- VF: the same frame read under 11-bit addressing. -/
theorem test_funpk : (after .funpk { withFrm [0x54, 0xB0, 0x91, 0x07, 0x41, 0x66] with al11 := true }).rxaddr = 0x2A5 := by
  decide +kernel
/-- S3: the CRC is right, the size field is not. -/
theorem test_funpk_size : (after .funpk (withFrm [0x01, 0x02, 0xB8, 0xDF, 0x41, 0xEB, 0x33, 0x6E, 0x9F])).statusWord =
    0x0103 := by decide +kernel
/-- VR: `0F F0`. -/
theorem test_rpack : (after .rpack (withFrm [0x0F, 0xF0])).raw = [0x23, 0x47, 0x56, 0x56, 0x47, 0x0D] := by decide
/-- VR, read back. -/
theorem test_runpk : (after .runpk (withRaw [0x23, 0x47, 0x56, 0x56, 0x47, 0x0D])).frm = [0x0F, 0xF0] := by decide
/-- VR: an odd count is tested before a bad nibble. -/
theorem test_runpk_order : (after .runpk (withRaw [0x23, 0x47, 0x46, 0x47, 0x0D])).statusWord = 0x0107 := by decide

/-- A command presented at the port right after reset is the one the step performs. -/
theorem test_step_fetches_the_word :
    step (State.reset.withFetchWord 16 0x1153) = exec (.hchr 0x53) (State.reset.onPort 0x1153 0) := rfl

/-! ### Witnesses: states and operands that meet the hypotheses of each statement, each clause at a boundary -/

/-- A boundary payload, frame, raw frame and string: every buffer at its capacity. -/
def fullState : State :=
  { State.reset with
    pay := List.replicate 15 0x11, frm := List.replicate 21 0x22, raw := List.replicate 44 0x47,
    str := List.replicate 15 0x44 }

/-- Every buffer one byte below its capacity. -/
def nearlyFullState : State :=
  { State.reset with
    pay := List.replicate 14 0x11, frm := List.replicate 20 0x22, raw := List.replicate 43 0x47,
    str := List.replicate 14 0x44 }

/-- StepTakesTheOldestHostEvent: a command, the reset input, nothing. -/
theorem witness_StepTakesTheOldestHostEvent :
    ((State.reset.present 0x5001 7).inbox = .command 0x5001 7 :: [] ∧ decode 0x5001 = .ok (.fpack true)) ∧
    (State.reset.presentAll [.reset, .reset]).inbox = .reset :: [.reset] ∧ State.reset.inbox = [] := by decide

/-- ResetInputAndSrstHaveTheSameEffect. -/
theorem witness_ResetInputAndSrstHaveTheSameEffect :
    (failedState.presentAll [.reset]).inbox = .reset :: [] := by decide

/-- ReservedOpcodesFault: each range of R65 at both ends. -/
theorem witness_ReservedOpcodesFault : State.reset.ekind = 0#3 ∧
    ([0x0900, 0x0FFF, 0x1300, 0x1F00, 0x2300, 0x2F00, 0x3500, 0x3F00, 0x4500, 0x4F00, 0x5400, 0xFFFF] : List Half).all
      (fun cw => reservedOpcode (opcOf cw)) = true := by decide

/-- ReservedImmediatesFault: each format at its first illegal value and at 255. -/
theorem witness_ReservedImmediatesFault : State.reset.ekind = 0#3 ∧
    ([0x0001, 0x53FF, 0x030F, 0x04FF, 0x0504, 0x22FF, 0x3002, 0x50FF, 0x3204, 0x42FF] : List Half).all
      illegalImmediate = true := by decide

/-- The statements about a reserved `imm` of one opcode: the first illegal value of each format. -/
theorem witness_FaultsReservedImmediate : State.reset.ekind = 0#3 ∧ (1#8 ≠ 0#8) ∧ 1 < (2#8).toNat ∧
    3 < (4#8).toNat := by decide

/-- The refusal while an error is pending, of every statement that has it. -/
theorem witness_RefusedWhilePending : failedState.ekind ≠ 0#3 := by decide

/-- ErrorPendingAcceptsSixCommands: a refused word, registers 0 and 14, a buffer's last byte and the index past it. -/
theorem witness_ErrorPendingAcceptsSixCommands : failedState.ekind ≠ 0#3 ∧ opcOf 0x0406#16 ∉ acceptedOpcodes ∧
    opcOf 0x6000#16 ∉ acceptedOpcodes ∧
    failedState.registerView[(0#8).toNat]? = some 0x210 ∧ failedState.registerView[(14#8).toNat]? = some 0 ∧
    failedState.bufferView[(0#8).toNat]? = some [0xFD] ∧ failedState.bufferView[(3#8).toNat]? = some [] ∧
    ([0xFD#8] : List Byte)[(0#32).toNat]? = some 0xFD ∧ ([0xFD#8] : List Byte).length ≤ (1#32).toNat ∧
    opcOf 0x030F#16 ∈ acceptedOpcodes ∧ illegalImmediate 0x030F = true := by decide

/-- OnlyClrerrAndResetLeaveTheErrorState: with a refused command, CLRERR, SRST and the reset input. -/
theorem witness_OnlyClrerrAndResetLeaveTheErrorState : failedState.ekind ≠ 0#3 ∧
    step (failedState.present 0x0406 5) = .next (failedState.onPort 0x0406 5).refused ∧
    step (failedState.present 0x0100 0) = .next ((withPay [0xFD]).onPort 0x0100 0 |>.completed 0) ∧
    step (failedState.present 0x0200 0) = .next (State.reset.onPort 0x0200 0 |>.completed 0) ∧
    step (failedState.presentAll [.reset]) = .next State.reset := ⟨by decide, rfl, rfl, rfl, rfl⟩

/-- FaultsArePrecise: UPF32 on an empty payload. -/
theorem witness_FaultsArePrecise : State.reset.ekind = 0#3 ∧
    step (State.reset.present 0x4200 9) = .next ((State.reset.onPort 0x4200 9).failed 2 0x10) ∧
    ((State.reset.onPort 0x4200 9).failed 2 0x10).rsp = some ⟨false, 0⟩ := ⟨by decide, rfl, rfl⟩

/-- EveryCommandIsAnsweredAtThePort: a refused and a completed command. -/
theorem witness_EveryCommandIsAnsweredAtThePort :
    step (failedState.present 0x0406 5) = .next (failedState.onPort 0x0406 5).refused ∧
    opcOf 0x0406#16 ∉ [0x03#8, 0x07#8, 0x08#8] := ⟨rfl, by decide⟩

/-- OtherCommandsIgnoreWdata. -/
theorem witness_OtherCommandsIgnoreWdata : (∀ x, Instr.cclr ≠ .wrr x ∧ Instr.cclr ≠ .bpush x ∧ Instr.cclr ≠ .brd x) ∧
    exec .cclr State.reset = .next (State.reset.completed 0) := ⟨by decide, rfl⟩

/-- CompletedCommandsAreIdempotent. -/
theorem witness_CompletedCommandsAreIdempotent :
    (∀ x, Instr.upstr ≠ .bpush x ∧ Instr.upstr ≠ .cbyte x ∧ Instr.upstr ≠ .hchr x) ∧
    exec .upstr (withPay [1, 2]) = .next ({ withPay [1, 2] with str := [2, 1] }.completed 0) := ⟨by decide, rfl⟩

/-- ComponentsAreWrittenByTheirCommandsOnly: a command that writes VAL, and one that writes ADDR. -/
theorem witness_ComponentsAreWrittenByTheirCommandsOnly :
    (Instr.upf24 ≠ .srst ∧ exec .upf24 (withPay [1, 2, 3]) =
      .next ({ withPay [1, 2, 3] with val := 0x01020300 }.completed 0)) ∧
    (Instr.wrr 3 ≠ .srst ∧ exec (.wrr 3) (withData 0x7FF) =
      .next ({ withData 0x7FF with addr := 0x7FF }.completed 0)) := ⟨⟨by decide, rfl⟩, ⟨by decide, rfl⟩⟩

/-- EveryStepKeepsBuffersInCapacity: a push onto a full and onto a nearly full buffer. -/
theorem witness_EveryStepKeepsBuffersInCapacity : Memory.wf fullState = true ∧
    step (fullState.present 0x0600 1) = .next ((fullState.onPort 0x0600 1).failed 3 0x20) ∧
    Memory.wf nearlyFullState = true ∧ step (nearlyFullState.present 0x0600 0x11) =
      .next ({ nearlyFullState.onPort 0x0600 0x11 with pay := fullState.pay }.completed 0) :=
  ⟨by decide, rfl, by decide, rfl⟩

/-- EveryStepKeepsTheScannerLegal: four filled slots, the last about to take a dot. -/
theorem witness_EveryStepKeepsTheScannerLegal :
    ScannerInv { State.reset with slots := ⟨20, 77, 0, 76⟩, sidx := 4 } ∧
    step ({ State.reset with slots := ⟨20, 77, 0, 76⟩, sidx := 4 }.present 0x112E 0) =
      .next (({ State.reset with slots := ⟨20, 77, 0, 77⟩, sidx := 4 }.onPort 0x112E 0).completed 0) :=
  ⟨by unfold ScannerInv; decide, rfl⟩

/-- EveryStepKeepsTheErrorRecordConsistent: a recorded fault, and a fault taken from the clear record. -/
theorem witness_EveryStepKeepsTheErrorRecordConsistent : RecordInv failedState ∧ RecordInv State.reset ∧
    step (State.reset.present 0x4200 0) = .next ((State.reset.onPort 0x4200 0).failed 2 0x10) :=
  ⟨by unfold RecordInv; decide, by unfold RecordInv; decide, rfl⟩

/-- EncodeOfDecodeIsTheWord. -/
theorem witness_EncodeOfDecodeIsTheWord : decode 0x4203 = .ok (.upf32 true true) ∧ decode 0x04FF = .ok (.wrr 0xFF) := by
  decide

/-- RdrRule, WrrRule: the last legal and the first reserved register, and each width's last and first value. -/
theorem witness_register_rules : State.reset.ekind = 0#3 ∧ failedState.ekind ≠ 0#3 ∧
    State.reset.registerView[(14#8).toNat]? = some 0 ∧ 0x0E < (0x0F#8).toNat ∧
    (withData 2).ekind = 0#3 ∧ 2 ^ 1 ≤ (withData 2).wdata.toNat ∧ (withData 1).wdata.toNat < 2 ^ 1 ∧
    2 ^ 11 ≤ (withData 0x800).wdata.toNat ∧ (withData 0x7FF).wdata.toNat < 2 ^ 11 ∧
    2 ^ 16 ≤ (withData 0x10000).wdata.toNat ∧ (withData 0xFFFF).wdata.toNat < 2 ^ 16 := by decide

/-- BclrRule, BpushRule, BrdRule, BlenRule, CbufRule: the last buffer and the first reserved one, full and nearly full
buffers, the last byte value and the first too large, the last index and the first out of range. -/
theorem witness_buffer_rules : fullState.ekind = 0#3 ∧ nearlyFullState.ekind = 0#3 ∧ 3 < (4#8).toNat ∧
    (3#8).toNat ≤ 3 ∧ 2 ^ 8 ≤ (withData 0x100).wdata.toNat ∧ (withData 0xFF).wdata.toNat < 2 ^ 8 ∧
    fullState.pay.length = 15 ∧ fullState.frm.length = 21 ∧ fullState.raw.length = 44 ∧ fullState.str.length = 15 ∧
    nearlyFullState.pay.length < 15 ∧ nearlyFullState.frm.length < 21 ∧ nearlyFullState.raw.length < 44 ∧
    nearlyFullState.str.length < 15 ∧ fullState.bufferView[(3#8).toNat]? = some (List.replicate 15 0x44) ∧
    (List.replicate 15 0x44#8)[(14#32).toNat]? = some 0x44 ∧ (List.replicate 15 0x44#8).length ≤ (15#32).toNat := by
  decide

/-- NameCodeTable: the ends of the three ranges, and the bytes next to them. -/
theorem witness_NameCodeTable : nameCode 0x30 = some 0 ∧ nameCode 0x39 = some 18 ∧ nameCode 0x41 = some 20 ∧
    nameCode 0x5A = some 70 ∧ nameCode 0x61 = some 20 ∧ nameCode 0x7A = some 70 ∧ nameCode 0x3A = none ∧
    nameCode 0x40 = none ∧ nameCode 0x5B = none ∧ nameCode 0x60 = none ∧ nameCode 0x7B = none := by decide

/-- MixingAndCrcFunctions: an accumulator with bit 15 set and one without. -/
theorem witness_MixingAndCrcFunctions : (0x8000#16).getLsbD 15 = true ∧ (0x7FFF#16).getLsbD 15 = false ∧
    roundOnce 0x8000 = 0x8F57 ∧ roundOnce 0x7FFF = 0xFFFE := by decide

/-- HclrRule, HchrRule, HmixRule: no symbol, one unmarked, one marked, four symbols, and after a space. -/
theorem witness_hash_rules : State.reset.ekind = 0#3 ∧ State.reset.sdone = false ∧ State.reset.sidx.toNat ≤ 4 ∧
    State.reset.sidx = 0#3 ∧ (1#3).toNat = 0 + 1 ∧ (⟨20, 78, 78, 78⟩ : Slots).toList[0]? = some 20 ∧
    (20#7).getLsbD 0 = false ∧ (21#7).getLsbD 0 = true ∧ (4#3).toNat = 3 + 1 ∧
    (⟨20, 22, 24, 26⟩ : Slots).toList[3]? = some 26 ∧ nameCode 0x21 = none ∧ nameCode 0x5F = some 74 ∧
    (3#3).toNat < 4 ∧ { State.reset with sdone := true }.sdone = true := by decide

/-- HnameComputesTheHashOfTheName: a name with a hash and one without, from the reset state. -/
theorem witness_HnameComputesTheHashOfTheName : State.reset.ekind = 0#3 ∧ hashName [0x53, 0x50] = some 0x9107 ∧
    hashName [0x41, 0x21] = none := by decide +kernel

/-- HashIgnoresCaseAndTheTailAfterASpace: the first and the last capital letter. -/
theorem witness_HashIgnoresCaseAndTheTailAfterASpace : 0x41 ≤ (0x41#8).toNat ∧ (0x5A#8).toNat ≤ 0x5A := by decide

/-- CclrRule, CbyteRule, CrcofComputesTheCrc16OfTheBytes: no error pending, and `CRC` the CRC16 of a list. -/
theorem witness_crc_rules : State.reset.ekind = 0#3 ∧ { State.reset with crc := 0x8F57 }.crc = crc16 [0x01] := by
  decide +kernel

/-- Crc16ResidueCorruptionAndLinearity: two bytes that differ, two lists of one length. -/
theorem witness_Crc16ResidueCorruptionAndLinearity : (0xEB#8 ≠ 0xEA#8) ∧ [1#8, 2#8].length = [3#8, 4#8].length := by
  decide

/-- Pki16Rule, PkchrRule: each range at both ends, inside and outside. -/
theorem witness_integer_pack_rules : (withVal 0).ekind = 0#3 ∧
    65535 < (withVal 65536).val.toNat ∧ (withVal 65535).val.toNat ≤ 65535 ∧
    (withVal 0xFFFF7FFF).val.toInt < -32768 ∧ 32767 < (withVal 0x8000).val.toInt ∧
    -32768 ≤ (withVal 0xFFFF8000).val.toInt ∧ (withVal 0x7FFF).val.toInt ≤ 32767 ∧
    255 < (withVal 256).val.toNat ∧ (withVal 255).val.toNat ≤ 255 ∧
    (withVal 0xFFFFFF7F).val.toInt < -128 ∧ 127 < (withVal 0x80).val.toInt ∧
    -128 ≤ (withVal 0xFFFFFF80).val.toInt ∧ (withVal 0x7F).val.toInt ≤ 127 := by decide

/-- Pkf32Rule, Pkf24Rule: a value, a time and an index as their bytes. -/
theorem witness_float_pack_rules : (withVal 0x41EB3333).ekind = 0#3 ∧
    (withVal 0x41EB3333).val = 0x41#8 ++ 0xEB#8 ++ 0x33#8 ++ 0x33#8 ∧
    (withVal 0x41EB3333).vtime = 0x12#8 ++ 0x34#8 ∧ (withVal 0x41EB3333).vidx = 0xAB#8 ++ 0xCD#8 := by decide

/-- PkstrRule, UpstrRule: the empty and the full string. -/
theorem witness_string_rules : State.reset.ekind = 0#3 ∧ fullState.ekind = 0#3 ∧ 14 < fullState.str.length ∧
    14 < fullState.pay.length := by decide

/-- Upi16Rule, UpchrRule, Upf32Rule, Upf24Rule: each right length, and the lengths next to it. -/
theorem witness_unpack_rules : (withPay [1]).ekind = 0#3 ∧ (withPay []).pay.length = 0 ∧
    2 < (withPay [1, 2, 3]).pay.length ∧ (withPay [1]).pay = [1] ∧ (withPay [1, 2]).pay = [1, 2] ∧
    (withPay [1, 2]).pay.length ≠ 1 ∧ (withPay [1, 2, 3]).pay.length ≠ 4 ∧ (withPay [1, 2, 3, 4, 5]).pay.length ≠ 6 ∧
    (withPay [1, 2, 3, 4, 5, 6, 7]).pay.length ≠ 8 ∧ (withPay [1, 2, 3, 4]).pay = [1, 2, 3, 4] ∧
    (withPay [1, 2, 3, 4, 5, 6]).pay = [1, 2, 3, 4, 5, 6] ∧
    (withPay [1, 2, 3, 4, 5, 6, 7, 8]).pay = [1, 2, 3, 4, 5, 6, 7, 8] ∧ (withPay [1, 2]).pay.length ≠ 3 ∧
    (withPay [1, 2, 3]).pay = [1, 2, 3] := by decide

/-- FloatAndStringRoundTrips: each pack and the unpack after it answer a next state. -/
theorem witness_FloatAndStringRoundTrips : (withVal 0x41EB3333).ekind = 0#3 ∧
    exec .pkf24 (withVal 0x41EB3333) = .next ({ withVal 0x41EB3333 with pay := [0x41, 0xEB, 0x33] }.completed 0) ∧
    exec .upf24 ({ withVal 0x41EB3333 with pay := [0x41, 0xEB, 0x33] }.completed 0) =
      .next ({ withVal 0x41EB3300 with pay := [0x41, 0xEB, 0x33] }.completed 0) ∧
    exec (.pkf32 false false) (withVal 5) = .next ({ withVal 5 with pay := [0, 0, 0, 5] }.completed 0) ∧
    exec (.upf32 false false) ({ withVal 9 with pay := [0, 0, 0, 5] }.completed 0) =
      .next ({ withVal 5 with pay := [0, 0, 0, 5] }.completed 0) ∧
    exec .pkstr { State.reset with str := [1, 2] } =
      .next ({ State.reset with str := [1, 2], pay := [2, 1] }.completed 0) ∧
    exec .upstr ({ State.reset with str := [], pay := [2, 1] }.completed 0) =
      .next ({ State.reset with str := [1, 2], pay := [2, 1] }.completed 0) := by
  exact ⟨by decide, rfl, rfl, rfl, rfl, rfl, rfl⟩

/-- IntegerRoundTrips: -32768 signed, 255 unsigned. -/
theorem witness_IntegerRoundTrips :
    exec (.pki16 true) (withVal 0xFFFF8000) = .next ({ withVal 0xFFFF8000 with pay := [0x80, 0] }.completed 0) ∧
    exec (.upi16 true) { ({ withVal 0xFFFF8000 with pay := [0x80, 0] }.completed 0) with val := 7 } =
      .next ({ withVal 0xFFFF8000 with pay := [0x80, 0] }.completed 0) ∧
    exec (.pkchr false) (withVal 0xFF) = .next ({ withVal 0xFF with pay := [0xFF] }.completed 0) ∧
    exec (.upchr false) { ({ withVal 0xFF with pay := [0xFF] }.completed 0) with val := 7 } =
      .next ({ withVal 0xFF with pay := [0xFF] }.completed 0) := ⟨rfl, rfl, rfl, rfl⟩

/-- FpackRule: a payload with a request, the last and first addresses of 8 bits, and the two layouts. -/
theorem witness_FpackRule : (withPay [1]).ekind = 0#3 ∧ (withPay [1]).pay ≠ [] ∧
    { State.reset with addr := 0x100 }.al11 = false ∧ 0xFF < { State.reset with addr := 0x100 }.addr.toNat ∧
    (true = true → State.reset.pay = []) ∧ (0x9107#16 : Half) = 0x91#8 ++ 0x07#8 ∧ (0x0FF#11) = 0#3 ++ 0xFF#8 ∧
    (0x2A5#11) = 0x54#8 ++ 0b101#3 ∧ crc16 [0x01, 0x10, 0x91, 0x07] = 0x0C#8 ++ 0x1A#8 := by decide +kernel

/-- FunpkRule: five bytes, a wrong CRC, a wrong size, an accepted frame. -/
theorem witness_FunpkRule : State.reset.ekind = 0#3 ∧ (withFrm [1, 0x10, 0x91, 7, 0x0C]).frm.length < 6 ∧
    (withFrm [1, 0x10, 0x91, 7, 0x0C, 0x1A]).frm = [1, 0x10, 0x91, 7] ++ [] ++ [0x0C, 0x1A] ∧
    crc16 ([1, 0x10, 0x91, 7] ++ []) = 0x0C#8 ++ 0x1A#8 ∧ crc16 ([1, 0x10, 0x91, 7] ++ []) ≠ 0x0C#8 ++ 0x1B#8 ∧
    (0x10#8).toNat % 16 = ([] : List Byte).length ∧
    crc16 ([1, 2, 0xB8, 0xDF] ++ [0x41, 0xEB, 0x33]) = 0x6E#8 ++ 0x9F#8 ∧
    (2#8).toNat % 16 ≠ [0x41#8, 0xEB#8, 0x33#8].length := by decide +kernel

/-- FunpkAcceptsWhatFpackProduced: the request for `SP` at address 1, then FUNPK. -/
theorem witness_FunpkAcceptsWhatFpackProduced :
    (after (.fpack true) { State.reset with addr := 1, hash := 0x9107 }).rsp = some ⟨true, 0⟩ ∧
    (after .funpk (after (.fpack true) { State.reset with addr := 1, hash := 0x9107 })).rsp = some ⟨true, 0⟩ := by
  decide +kernel

/-- RpackRule, RunpkRule: no bytes, each wrong marker, an odd count, each nibble byte next to the range, both ends. -/
theorem witness_raw_frame_rules : (withRaw []).ekind = 0#3 ∧ (withRaw []).raw.head? ≠ some 0x23 ∧
    (withRaw [0x23]).raw.head? = some 0x23 ∧ (withRaw [0x23]).raw.getLast? ≠ some 0x0D ∧
    (withRaw [0x23, 0x47, 0x0D]).raw = [0x23] ++ [0x47] ++ [0x0D] ∧ [0x47#8].length % 2 = 1 ∧
    (withRaw [0x23, 0x46, 0x57, 0x0D]).raw = [0x23] ++ [0x46, 0x57] ++ [0x0D] ∧ [0x46#8, 0x57#8].length % 2 = 0 ∧
    (0x46#8).toNat < 0x47 ∧ 0x56 < (0x57#8).toNat ∧
    (withRaw [0x23, 0x47, 0x56, 0x0D]).raw = [0x23] ++ [0x47, 0x56] ++ [0x0D] ∧
    (∀ v ∈ [0x47#8, 0x56#8], 0x47 ≤ v.toNat ∧ v.toNat ≤ 0x56) := by decide

/-- RawFrameRoundTrips: both directions on one byte. -/
theorem witness_RawFrameRoundTrips :
    exec .rpack (withFrm [0x0F]) = .next ({ withFrm [0x0F] with raw := [0x23, 0x47, 0x56, 0x0D] }.completed 0) ∧
    exec .runpk { ({ withFrm [0x0F] with raw := [0x23, 0x47, 0x56, 0x0D] }.completed 0) with frm := [] } =
      .next ({ withFrm [0x0F] with raw := [0x23, 0x47, 0x56, 0x0D] }.completed 0) := ⟨rfl, rfl⟩

end Sys2Proof.Tests
end

-- The reset block: its components, and the statement of the reset table.
section
/-! The components of the reset block, one lemma per field. They are stated of `Block.reset`, which the reset state, the
reset input and SRST share, so that `State.reset_toBlock`, `resetInput_toBlock` and `softReset_toBlock` lead to them. -/

namespace Sys2Proof.Machine

@[simp] theorem State.reset_toBlock : State.reset.toBlock = Block.reset := rfl

/-! ### The operand registers, CFG and the CRC (R11, R16, R17) -/

@[simp] theorem Block.reset_addr : Block.reset.addr = 0#11 := rfl
@[simp] theorem Block.reset_hash : Block.reset.hash = 0#16 := rfl
@[simp] theorem Block.reset_val : Block.reset.val = 0#32 := rfl
@[simp] theorem Block.reset_vtime : Block.reset.vtime = 0#16 := rfl
@[simp] theorem Block.reset_vidx : Block.reset.vidx = 0#16 := rfl
@[simp] theorem Block.reset_al11 : Block.reset.al11 = false := rfl
@[simp] theorem Block.reset_crc : Block.reset.crc = 0#16 := rfl

/-! ### The error record (R14, R15) -/

@[simp] theorem Block.reset_ekind : Block.reset.ekind = 0#3 := rfl
@[simp] theorem Block.reset_ecause : Block.reset.ecause = 0#8 := rfl
@[simp] theorem Block.reset_ecmd : Block.reset.ecmd = 0#16 := rfl

/-! ### The receive registers (R18) -/

@[simp] theorem Block.reset_rxaddr : Block.reset.rxaddr = 0#11 := rfl
@[simp] theorem Block.reset_rxflags : Block.reset.rxflags = 0#8 := rfl
@[simp] theorem Block.reset_rxhash : Block.reset.rxhash = 0#16 := rfl
@[simp] theorem Block.reset_rxcrc : Block.reset.rxcrc = 0#16 := rfl

/-! ### The name scanner (R19, R20) -/

/-- Every slot holds the fill value, as after HCLR. -/
@[simp] theorem Block.reset_slots : Block.reset.slots = ⟨78#7, 78#7, 78#7, 78#7⟩ := rfl
@[simp] theorem Block.reset_sidx : Block.reset.sidx = 0#3 := rfl
@[simp] theorem Block.reset_sdone : Block.reset.sdone = false := rfl

/-! ### The buffers (R22) -/

@[simp] theorem Block.reset_pay : Block.reset.pay = [] := rfl
@[simp] theorem Block.reset_str : Block.reset.str = [] := rfl
@[simp] theorem Block.reset_frm : Block.reset.frm = [] := rfl
@[simp] theorem Block.reset_raw : Block.reset.raw = [] := rfl

/-- Settles O3: the block of the reset state is `Block.reset`, whose components the lemmas above give one by one. -/
theorem resetStateIsTheTable : Obligations.ResetStateIsTheTable := by
  unfold Obligations.ResetStateIsTheTable
  rw [State.reset_toBlock]
  exact ⟨Block.reset_addr, Block.reset_hash, Block.reset_val, Block.reset_vtime,
    Block.reset_vidx, Block.reset_al11, Block.reset_ekind, Block.reset_ecause,
    Block.reset_ecmd, Block.reset_crc, Block.reset_rxaddr, Block.reset_rxflags,
    Block.reset_rxhash, Block.reset_rxcrc, Block.reset_slots, Block.reset_sidx,
    Block.reset_sdone, Block.reset_pay, Block.reset_str, Block.reset_frm, Block.reset_raw⟩

end Sys2Proof.Machine
end

-- The reserved words: what a transfer with one does, and the statements of R65 and R66.
section
/-! One transfer at the port, and the words that are no legal command (30_encoding R65, R66). A reserved word raises its
cause in every state: `raise` itself keeps the first error while one is pending (R184), so
`performCommand_of_reservedOpcode` and `performCommand_of_illegalImmediate` need no case on the error record, and the
two statements at the end are what they say with no error pending. -/

namespace Sys2Proof.Machine

/-! ### One transfer at the port (R60) -/

/-- The oldest transfer is performed with its word and write data on the port. -/
theorem step_present (s : State) (cw : Half) (wdata : Word) :
    step (s.present cw wdata) = performCommand (s.onPort cw wdata) := rfl

theorem performCommand_of_ok {s : State} {i : Instr} (h : decode s.cw = .ok i) :
    performCommand s = exec i s := by
  simp [performCommand, h]

theorem performCommand_of_error {s : State} {e : DecodeError} (h : decode s.cw = .error e) :
    performCommand s = illegalCommand e s := by
  simp [performCommand, h]

/-- The refusal while an error is pending (R184) adds nothing to a fault, which makes the same refusal. -/
theorem unlessPending_raise (s : State) (c : Cause) : unlessPending s (raise c s) = raise c s := by
  by_cases h : s.ekind = 0#3
  · exact unlessPending_of_clear _ h
  · rw [unlessPending_of_pending _ h, raise_of_pending c h]

/-! ### The formats (R62) -/

theorem formatZ_reserved {imm : Byte} (h : imm ≠ 0#8) (i : Instr) :
    formatZ imm i = .error .reservedImmediate := by
  simp [formatZ, h]

/-- A byte that does not fit the `n` modifier bits of format M has a reserved bit set. -/
theorem reservedBits_ne_zero {imm : Byte} {n : Nat} (h : 2 ^ n ≤ imm.toNat) : imm >>> n ≠ 0#8 := by
  intro hz
  have hq : imm.toNat / 2 ^ n = 0 := by
    simpa [Nat.shiftRight_eq_div_pow] using congrArg BitVec.toNat hz
  exact (Nat.div_pos h (Nat.two_pow_pos n)).ne' hq

theorem formatM1_reserved {imm : Byte} (h : 1 < imm.toNat) (f : Bool → Instr) :
    formatM1 imm f = .error .reservedImmediate := by
  simp [formatM1, reservedBits_ne_zero (n := 1) h]

theorem formatM2_reserved {imm : Byte} (h : 3 < imm.toNat) (f : Bool → Bool → Instr) :
    formatM2 imm f = .error .reservedImmediate := by
  simp [formatM2, reservedBits_ne_zero (n := 2) h]

/-! ### The decoder on each format's opcodes (R63) -/

/-- The opcodes R65 lists are those of no format: Z, R, B, M with one bit, M with two bits, and D (HCHR and CBYTE). -/
theorem reservedOpcode_iff (opc : Byte) : reservedOpcode opc = true ↔
    ¬ (opc ∈ opcodesZ ∨ opc ∈ opcodesR ∨ opc ∈ opcodesB ∨ opc ∈ opcodesM1 ∨ opc ∈ opcodesM2 ∨
      opc ∈ [0x11#8, 0x21#8]) := by
  revert opc
  decide

/-- Every row of the table has a defined opcode, so a reserved one reaches the decoder's last line. -/
theorem decode_of_reservedOpcode {cw : Half} (h : reservedOpcode (opcOf cw) = true) :
    decode cw = .error .reservedOpcode := by
  unfold decode
  split
  case h_30 => rfl
  all_goals
    rename_i row
    exact absurd (row ▸ h) (by decide)

theorem decode_of_opcodesZ {cw : Half} (h : opcOf cw ∈ opcodesZ) : ∃ i, decode cw = formatZ (immOf cw) i := by
  simp only [opcodesZ, List.mem_cons, List.not_mem_nil, or_false] at h
  rcases h with h | h | h | h | h | h | h | h | h | h | h | h | h <;> exact ⟨_, by rw [decode, h]; rfl⟩

theorem decode_of_opcodesM1 {cw : Half} (h : opcOf cw ∈ opcodesM1) : ∃ f, decode cw = formatM1 (immOf cw) f := by
  simp only [opcodesM1, List.mem_cons, List.not_mem_nil, or_false] at h
  rcases h with h | h | h | h | h <;> exact ⟨_, by rw [decode, h]; rfl⟩

theorem decode_of_opcodesM2 {cw : Half} (h : opcOf cw ∈ opcodesM2) : ∃ f, decode cw = formatM2 (immOf cw) f := by
  simp only [opcodesM2, List.mem_cons, List.not_mem_nil, or_false] at h
  rcases h with h | h <;> exact ⟨_, by rw [decode, h]; rfl⟩

theorem decode_of_opcodesR {cw : Half} (h : opcOf cw ∈ opcodesR) :
    ∃ i, decode cw = .ok i ∧ i.wellFormed = legalRegister (immOf cw) := by
  simp only [opcodesR, List.mem_cons, List.not_mem_nil, or_false] at h
  rcases h with h | h <;> exact ⟨_, by rw [decode, h]; rfl, rfl⟩

theorem decode_of_opcodesB {cw : Half} (h : opcOf cw ∈ opcodesB) :
    ∃ i, decode cw = .ok i ∧ i.wellFormed = legalBuffer (immOf cw) := by
  simp only [opcodesB, List.mem_cons, List.not_mem_nil, or_false] at h
  rcases h with h | h | h | h | h <;> exact ⟨_, by rw [decode, h]; rfl, rfl⟩

/-! ### Reserved words at the port -/

/-- A register number or buffer identifier outside the legal set (R62) faults in the command's own rule. -/
theorem exec_of_not_wellFormed {i : Instr} (s : State) (h : i.wellFormed = false) :
    exec i s = raise .reservedImmediate s := by
  have noReg {r : Byte} (hr : legalRegister r = false) : regOf? r = none :=
    regOf?_eq_none.2 (by simpa [legalRegister] using hr)
  have noBuf {b : Byte} (hb : legalBuffer b = false) : bufOf? b = none :=
    bufOf?_eq_none.2 (by simpa [legalBuffer] using hb)
  cases i with
  | rdr r => simp [exec, execRdr, noReg h]
  | wrr r => simp [exec, execWrr, noReg h, unlessPending_raise]
  | bclr b => simp [exec, execBclr, noBuf h, unlessPending_raise]
  | bpush b => simp [exec, execBpush, noBuf h, unlessPending_raise]
  | brd b => simp [exec, execBrd, noBuf h]
  | blen b => simp [exec, execBlen, noBuf h]
  | cbuf b => simp [exec, execCbuf, noBuf h, unlessPending_raise]
  | _ => simp [Instr.wellFormed] at h

theorem performCommand_of_reservedOpcode {s : State} (h : reservedOpcode (opcOf s.cw) = true) :
    performCommand s = raise .reservedOpcode s :=
  performCommand_of_error (decode_of_reservedOpcode h)

/-- What R66 lists, format by format (Z, R, B, M with one bit, M with two). -/
theorem illegalImmediate_iff {cw : Half} : illegalImmediate cw = true ↔
    (opcOf cw ∈ opcodesZ ∧ immOf cw ≠ 0#8) ∨ (opcOf cw ∈ opcodesR ∧ 0x0E < (immOf cw).toNat) ∨
    (opcOf cw ∈ opcodesB ∧ 3 < (immOf cw).toNat) ∨ (opcOf cw ∈ opcodesM1 ∧ 1 < (immOf cw).toNat) ∨
    (opcOf cw ∈ opcodesM2 ∧ 3 < (immOf cw).toNat) := by
  simp [illegalImmediate, or_assoc, ← BitVec.toNat_inj]

/-- Formats Z and M are refused by the decoder, formats R and B by the command itself: the fault is the same. -/
theorem performCommand_of_illegalImmediate {s : State} (h : illegalImmediate s.cw = true) :
    performCommand s = raise .reservedImmediate s := by
  have atDecode (hd : decode s.cw = .error .reservedImmediate) :
      performCommand s = raise .reservedImmediate s := performCommand_of_error hd
  rcases illegalImmediate_iff.1 h with ⟨hopc, himm⟩ | ⟨hopc, himm⟩ | ⟨hopc, himm⟩ | ⟨hopc, himm⟩ | ⟨hopc, himm⟩
  · obtain ⟨i, hd⟩ := decode_of_opcodesZ hopc
    exact atDecode (hd.trans (formatZ_reserved himm i))
  · obtain ⟨i, hd, hwf⟩ := decode_of_opcodesR hopc
    rw [performCommand_of_ok hd, exec_of_not_wellFormed s (by simpa [hwf, legalRegister] using himm)]
  · obtain ⟨i, hd, hwf⟩ := decode_of_opcodesB hopc
    rw [performCommand_of_ok hd, exec_of_not_wellFormed s (by simpa [hwf, legalBuffer] using himm)]
  · obtain ⟨f, hd⟩ := decode_of_opcodesM1 hopc
    exact atDecode (hd.trans (formatM1_reserved himm f))
  · obtain ⟨f, hd⟩ := decode_of_opcodesM2 hopc
    exact atDecode (hd.trans (formatM2_reserved himm f))

/-! ### Format D -/

/-- `opcOf` and `immOf` take a word's two fields apart again (R61). -/
@[simp] theorem opcOf_append (opc imm : Byte) : opcOf (opc ++ imm) = opc := hi_append opc imm
@[simp] theorem immOf_append (opc imm : Byte) : immOf (opc ++ imm) = imm := lo_append opc imm

theorem decode_hchr (imm : Byte) : decode (0x11#8 ++ imm) = .ok (.hchr imm) := by
  simp [decode]

theorem decode_cbyte (imm : Byte) : decode (0x21#8 ++ imm) = .ok (.cbyte imm) := by
  simp [decode]

/-! ### The statements -/

/-- Settles O4: the list of R65 is the complement of the table, and a word with one of its opcodes raises ReservedOpcode,
which with no error pending is recorded. -/
theorem reservedOpcodesFault : Obligations.ReservedOpcodesFault := by
  refine ⟨reservedOpcode_iff, fun s cw wdata hclear hopc => ?_⟩
  rw [step_present, performCommand_of_reservedOpcode (s := s.onPort cw wdata) hopc]
  exact raise_of_clear .reservedOpcode hclear

/-- Settles O5: a word with an illegal `imm` raises ReservedImmediate, which with no error pending is recorded; HCHR and
CBYTE take every `imm`. -/
theorem reservedImmediatesFault : Obligations.ReservedImmediatesFault := by
  refine ⟨fun s cw wdata hclear hill => ?_, fun imm => ⟨decode_hchr imm, decode_cbyte imm⟩⟩
  rw [step_present, performCommand_of_illegalImmediate (s := s.onPort cw wdata) hill]
  exact raise_of_clear .reservedImmediate hclear

end Sys2Proof.Machine
end

-- Host access, the commands: what each of the nine answers, and how its operands name registers and buffers.
section
/-! The nine commands of 40_host_access (R80 to R88), one lemma per branch of a rule, in the terms of the claims.
A branch that faults is `raise` of its cause in every state, also where the command is refused while an error is pending
(`unlessPending_raise`); a branch that completes needs no pending error where the command is so refused. -/

namespace Sys2Proof.Machine

/-! ### Reserved operands (R62, R66) -/

theorem legalRegister_eq_false {r : Byte} (h : 0x0E < r.toNat) : legalRegister r = false := by
  simpa [legalRegister] using h

theorem legalBuffer_eq_false {b : Byte} (h : 3 < b.toNat) : legalBuffer b = false := by
  simpa [legalBuffer] using h

theorem exec_not_wellFormed_of_clear {i : Instr} {s : State} (h : i.wellFormed = false) (hclear : s.ekind = 0#3) :
    exec i s = .next (s.failed 4 0x31) := by
  rw [exec_of_not_wellFormed s h]
  exact raise_of_clear .reservedImmediate hclear

theorem exec_not_wellFormed_of_pending {i : Instr} {s : State} (h : i.wellFormed = false) (hpending : s.ekind ≠ 0#3) :
    exec i s = .next s.refused := by
  rw [exec_of_not_wellFormed s h]
  exact raise_of_pending .reservedImmediate hpending

/-- A word of format Z with a bit of `imm` set is one R66 lists. -/
theorem illegalImmediate_of_opcodesZ {opc imm : Byte} (hopc : opc ∈ opcodesZ) (himm : imm ≠ 0#8) :
    illegalImmediate (opc ++ imm) = true :=
  illegalImmediate_iff.2 (.inl ⟨by simpa using hopc, by simpa using himm⟩)

theorem faultsReservedImmediate_of_opcodesZ {opc : Byte} (hopc : opc ∈ opcodesZ) :
    FaultsReservedImmediate opc (· ≠ 0#8) :=
  fun s _ wdata hclear himm => reservedImmediatesFault.1 s _ wdata hclear (illegalImmediate_of_opcodesZ hopc himm)

/-- The reserved `imm` takes no second fault: the first error is kept (R184, R186). -/
theorem step_illegalImmediate_of_pending {s : State} {cw : Half} (wdata : Word) (hpending : s.ekind ≠ 0#3)
    (hill : illegalImmediate cw = true) : step (s.present cw wdata) = .next (s.onPort cw wdata).refused := by
  rw [step_present, performCommand_of_illegalImmediate (s := s.onPort cw wdata) hill]
  exact raise_of_pending .reservedImmediate hpending

/-! ### The views name what the operands name -/

theorem regOf?_of_registerView {s : State} {r : Byte} {v : Word} (h : s.registerView[r.toNat]? = some v) :
    ∃ reg, regOf? r = some reg ∧ s.readReg reg = v := by
  cases hreg : regOf? r with
  | none =>
    have hpast : 14 < r.toNat := regOf?_eq_none.1 hreg
    have hlt : r.toNat < 15 := (List.getElem?_eq_some_iff.1 h).1
    omega
  | some reg => exact ⟨reg, rfl, Option.some.inj ((registerView_of_regOf? hreg).symm.trans h)⟩

theorem bufOf?_of_le {b : Byte} (h : b.toNat ≤ 3) : ∃ x, bufOf? b = some x :=
  Option.ne_none_iff_exists'.1 fun hnone => absurd (bufOf?_eq_none.1 hnone) (by omega)

theorem bufOf?_of_bufferView {s : State} {b : Byte} {l : List Byte} (h : s.bufferView[b.toNat]? = some l) :
    ∃ x, bufOf? b = some x ∧ s.buf x = l := by
  have hlt : b.toNat < 4 := (List.getElem?_eq_some_iff.1 h).1
  obtain ⟨x, hx⟩ := bufOf?_of_le (b := b) (by omega)
  exact ⟨x, hx, Option.some.inj ((bufferView_of_bufOf? hx).symm.trans h)⟩

/-- The read-only registers of R84 by their numbers. -/
theorem regOf?_readOnly {r : Byte}
    (h : r ∈ [0x00#8, 0x01#8, 0x05#8, 0x09#8, 0x0A#8, 0x0B#8, 0x0C#8, 0x0D#8, 0x0E#8]) :
    ∃ reg, regOf? r = some reg ∧ reg.writable = false := by
  simp only [List.mem_cons, List.not_mem_nil, or_false] at h
  rcases h with rfl | rfl | rfl | rfl | rfl | rfl | rfl | rfl | rfl <;> exact ⟨_, rfl, rfl⟩

/-- The writable registers of 16 bits, HASH, VTIME and VIDX, by their numbers. -/
theorem regOf?_halves {r : Byte} (h : r ∈ [0x04#8, 0x07#8, 0x08#8]) :
    ∃ reg, regOf? r = some reg ∧ reg.writable = true ∧ reg.width = 16 := by
  simp only [List.mem_cons, List.not_mem_nil, or_false] at h
  rcases h with rfl | rfl | rfl <;> exact ⟨_, rfl, rfl, rfl⟩

theorem fitsUnsigned_eq_false {w : Nat} {v : Word} (h : 2 ^ w ≤ v.toNat) : fitsUnsigned w v = false :=
  Bool.eq_false_iff.2 fun hfits => Nat.not_lt.2 h (fitsUnsigned_iff.1 hfits)

/-! ### System commands (R80 to R82) -/

theorem exec_nop (s : State) : exec .nop s = .next (s.completed 0) := rfl

theorem exec_clrerr (s : State) : exec .clrerr s = .next (s.clearError.completed 0) := rfl

theorem exec_srst (s : State) : exec .srst s = .next (s.softReset.completed 0) := rfl

/-! ### Register access (R83, R84) -/

section Registers
variable {s : State} {r : Byte} {reg : Reg}

theorem exec_rdr {v : Word} (hview : s.registerView[r.toNat]? = some v) :
    exec (.rdr r) s = .next (s.completed v) := by
  obtain ⟨reg, hreg, rfl⟩ := regOf?_of_registerView hview
  simp [exec, execRdr, hreg, answer_eq_completed]

theorem refusedWhilePending_wrr (r : Byte) : RefusedWhilePending (.wrr r) :=
  fun _ hpending => unlessPending_of_pending _ hpending

theorem exec_wrr_readOnly (hreg : regOf? r = some reg) (hro : reg.writable = false) :
    exec (.wrr r) s = raise .readOnlyRegister s := by
  simp [exec, execWrr, hreg, hro, unlessPending_raise]

theorem exec_wrr_tooWide (hreg : regOf? r = some reg) (hw : reg.writable = true)
    (hwide : 2 ^ reg.width ≤ s.wdata.toNat) : exec (.wrr r) s = raise .operandRange s := by
  simp [exec, execWrr, hreg, hw, fitsUnsigned_eq_false hwide, unlessPending_raise]

theorem exec_wrr_fits (hclear : s.ekind = 0#3) (hreg : regOf? r = some reg) (hw : reg.writable = true)
    (hfits : s.wdata.toNat < 2 ^ reg.width) : exec (.wrr r) s = .next ((s.writeReg reg s.wdata).completed 0) := by
  simp [exec, execWrr, unlessPending_of_clear _ hclear, hreg, hw, fitsUnsigned_iff.2 hfits, done_eq_completed]

end Registers

/-! ### Buffer access (R85 to R88) -/

section Buffers
variable {s : State} {b : Byte} {x : Buf}

theorem refusedWhilePending_bclr (b : Byte) : RefusedWhilePending (.bclr b) :=
  fun _ hpending => unlessPending_of_pending _ hpending

theorem exec_bclr_of_bufOf? (hclear : s.ekind = 0#3) (hx : bufOf? b = some x) :
    exec (.bclr b) s = .next ((s.bufClr x).completed 0) := by
  simp [exec, execBclr, unlessPending_of_clear _ hclear, hx, done_eq_completed]

theorem refusedWhilePending_bpush (b : Byte) : RefusedWhilePending (.bpush b) :=
  fun _ hpending => unlessPending_of_pending _ hpending

theorem exec_bpush_tooWide (hx : bufOf? b = some x) (hwide : 2 ^ 8 ≤ s.wdata.toNat) :
    exec (.bpush b) s = raise .operandRange s := by
  simp [exec, execBpush, hx, fitsUnsigned_eq_false hwide, unlessPending_raise]

theorem exec_bpush_full (hx : bufOf? b = some x) (hfits : s.wdata.toNat < 2 ^ 8)
    (hfull : x.cap ≤ (s.buf x).length) : exec (.bpush b) s = raise .bufferOverflow s := by
  simp [exec, execBpush, hx, fitsUnsigned_iff.2 hfits, State.bufFull, hfull, unlessPending_raise]

theorem exec_bpush_room (hclear : s.ekind = 0#3) (hx : bufOf? b = some x) (hfits : s.wdata.toNat < 2 ^ 8)
    (hroom : (s.buf x).length < x.cap) :
    exec (.bpush b) s = .next ((s.bufPush x (s.wdata.extractLsb' 0 8)).completed 0) := by
  simp [exec, execBpush, unlessPending_of_clear _ hclear, hx, fitsUnsigned_iff.2 hfits, State.bufFull, hroom,
    BitVec.setWidth_eq_extractLsb', done_eq_completed]

theorem exec_brd_inside {l : List Byte} {v : Byte} (hview : s.bufferView[b.toNat]? = some l)
    (hv : l[s.wdata.toNat]? = some v) : exec (.brd b) s = .next (s.completed (0#24 ++ v)) := by
  obtain ⟨x, hx, rfl⟩ := bufOf?_of_bufferView hview
  simp [exec, execBrd, hx, State.bufRead, hv, BitVec.setWidth_eq_append, answer_eq_completed]

theorem exec_brd_past {l : List Byte} (hview : s.bufferView[b.toNat]? = some l) (hpast : l.length ≤ s.wdata.toNat) :
    exec (.brd b) s = raise .bufferIndex s := by
  obtain ⟨x, hx, rfl⟩ := bufOf?_of_bufferView hview
  simp [exec, execBrd, hx, bufRead_eq_none.2 hpast]

theorem exec_blen {l : List Byte} (hview : s.bufferView[b.toNat]? = some l) :
    exec (.blen b) s = .next (s.completed (BitVec.ofNat 32 l.length)) := by
  obtain ⟨x, hx, rfl⟩ := bufOf?_of_bufferView hview
  simp [exec, execBlen, hx, answer_eq_completed]

end Buffers

end Sys2Proof.Machine
end

-- Host access, the statements of R80 to R88.
section
/-! Each command's whole rule, assembled from the lemmas about its branches. -/

namespace Sys2Proof.Machine

/-- Settles O21: NOP has no case on the error record, and opcode `0x00` is of format Z. -/
theorem nopRule : Obligations.NopRule :=
  ⟨rfl, exec_nop, faultsReservedImmediate_of_opcodesZ (by decide)⟩

/-- Settles O22: the three fields CLRERR writes are those of `clearError`; a reserved `imm` is met by the decoder. -/
theorem clrerrRule : Obligations.ClrerrRule :=
  have hopc : 0x01#8 ∈ opcodesZ := by decide
  ⟨rfl, exec_clrerr, faultsReservedImmediate_of_opcodesZ hopc, fun _ _ wdata hpending himm =>
    step_illegalImmediate_of_pending wdata hpending (illegalImmediate_of_opcodesZ hopc himm)⟩

/-- Settles O23: SRST replaces the whole `Block`, so no component keeps a value. -/
theorem srstRule : Obligations.SrstRule :=
  ⟨rfl, exec_srst, faultsReservedImmediate_of_opcodesZ (by decide)⟩

/-- Settles O24: an entry of the register view is what the register of that number reads. -/
theorem rdrRule : Obligations.RdrRule :=
  ⟨fun _ => rfl, fun _ _ _ => exec_rdr,
    fun _ _ hr hclear => exec_not_wellFormed_of_clear (legalRegister_eq_false hr) hclear,
    fun _ _ hr hpending => exec_not_wellFormed_of_pending (legalRegister_eq_false hr) hpending⟩

/-- Settles O25: the clauses follow the order of R84's checks; a value for VAL always fits, as 32 bits. -/
theorem wrrRule : Obligations.WrrRule := by
  refine ⟨fun _ => rfl, refusedWhilePending_wrr, fun s hclear => ?_⟩
  have outOfRange := raise_of_clear .operandRange hclear
  refine ⟨fun r hr => exec_not_wellFormed_of_clear (legalRegister_eq_false hr) hclear, fun r hr => ?readOnly,
    fun hwide => (exec_wrr_tooWide (reg := .cfg) rfl rfl hwide).trans outOfRange,
    fun hwide => (exec_wrr_tooWide (reg := .addr) rfl rfl hwide).trans outOfRange, fun hwide r hr => ?wide16,
    exec_wrr_fits (reg := .cfg) hclear rfl rfl, fun hfits => ?addr, fun hfits => ?fits16,
    exec_wrr_fits (reg := .val) hclear rfl rfl s.wdata.isLt⟩
  case readOnly =>
    obtain ⟨reg, hreg, hro⟩ := regOf?_readOnly hr
    exact (exec_wrr_readOnly hreg hro).trans (raise_of_clear .readOnlyRegister hclear)
  case wide16 =>
    obtain ⟨reg, hreg, hw, hwidth⟩ := regOf?_halves hr
    exact (exec_wrr_tooWide hreg hw (hwidth ▸ hwide)).trans outOfRange
  case addr =>
    rw [← BitVec.setWidth_eq_extractLsb' (by decide)]
    exact exec_wrr_fits (reg := .addr) hclear rfl rfl hfits
  case fits16 =>
    rw [← BitVec.setWidth_eq_extractLsb' (by decide)]
    exact ⟨exec_wrr_fits (reg := .hash) hclear rfl rfl hfits, exec_wrr_fits (reg := .vtime) hclear rfl rfl hfits,
      exec_wrr_fits (reg := .vidx) hclear rfl rfl hfits⟩

/-- Settles O26: one lemma for the four buffers, at each identifier. -/
theorem bclrRule : Obligations.BclrRule := by
  refine ⟨fun _ => rfl, refusedWhilePending_bclr, fun s hclear => ?_⟩
  exact ⟨fun b hb => exec_not_wellFormed_of_clear (legalBuffer_eq_false hb) hclear,
    exec_bclr_of_bufOf? (x := .pay) hclear rfl, exec_bclr_of_bufOf? (x := .frm) hclear rfl,
    exec_bclr_of_bufOf? (x := .raw) hclear rfl, exec_bclr_of_bufOf? (x := .str) hclear rfl⟩

/-- Settles O27: the range check comes before the capacity check, so only a byte that fits can overflow a buffer. -/
theorem bpushRule : Obligations.BpushRule := by
  refine ⟨fun _ => rfl, refusedWhilePending_bpush, fun s hclear => ?_⟩
  have overflow := raise_of_clear .bufferOverflow hclear
  refine ⟨fun b hb => exec_not_wellFormed_of_clear (legalBuffer_eq_false hb) hclear, fun b hb hwide => ?tooWide,
    fun hfits => ⟨fun hfull => (exec_bpush_full (x := .pay) rfl hfits hfull.ge).trans overflow,
      fun hfull => (exec_bpush_full (x := .frm) rfl hfits hfull.ge).trans overflow,
      fun hfull => (exec_bpush_full (x := .raw) rfl hfits hfull.ge).trans overflow,
      fun hfull => (exec_bpush_full (x := .str) rfl hfits hfull.ge).trans overflow,
      exec_bpush_room (x := .pay) hclear rfl hfits, exec_bpush_room (x := .frm) hclear rfl hfits,
      exec_bpush_room (x := .raw) hclear rfl hfits, exec_bpush_room (x := .str) hclear rfl hfits⟩⟩
  case tooWide =>
    obtain ⟨x, hx⟩ := bufOf?_of_le hb
    exact (exec_bpush_tooWide hx hwide).trans (raise_of_clear .operandRange hclear)

/-- Settles O28: BRD runs with an error pending too, so its two faults are raised in every state, and the error record
decides whether they are recorded or refused. -/
theorem brdRule : Obligations.BrdRule :=
  ⟨fun _ => rfl, fun _ _ _ _ => exec_brd_inside,
    fun _ _ hclear => ⟨fun hb => exec_not_wellFormed_of_clear (legalBuffer_eq_false hb) hclear,
      fun _ hview hpast => (exec_brd_past hview hpast).trans (raise_of_clear .bufferIndex hclear)⟩,
    fun _ _ hpending => ⟨fun hb => exec_not_wellFormed_of_pending (legalBuffer_eq_false hb) hpending,
      fun _ hview hpast => (exec_brd_past hview hpast).trans (raise_of_pending .bufferIndex hpending)⟩⟩

/-- Settles O29: an entry of the buffer view is the buffer of that identifier. -/
theorem blenRule : Obligations.BlenRule :=
  ⟨fun _ => rfl, fun _ _ _ => exec_blen,
    fun _ _ hb hclear => exec_not_wellFormed_of_clear (legalBuffer_eq_false hb) hclear,
    fun _ _ hb hpending => exec_not_wellFormed_of_pending (legalBuffer_eq_false hb) hpending⟩

end Sys2Proof.Machine
end

-- The name hash and CRC functions: the table code, the round, and the statements of R100, R102 to R104, R120, R121.
section
/-! The pure functions of 41_hash and 42_crc16, in the spec's own spelling: the table code range by range, and a value
put into the high bits of an accumulator as an append. -/

namespace Sys2Proof.Machine

/-! ### The table code (R100) -/

section NameCode
variable {c : Byte}

theorem nameCode_digit (hlo : 0x30 ≤ c.toNat) (hhi : c.toNat ≤ 0x39) :
    nameCode c = some (BitVec.ofNat 7 ((c.toNat - 0x30) * 2)) := by
  simp [nameCode, BitVec.le_def, hlo, hhi]

/-- A capital letter is past the digits. -/
theorem nameCode_upper (hlo : 0x41 ≤ c.toNat) (hhi : c.toNat ≤ 0x5A) :
    nameCode c = some (BitVec.ofNat 7 ((10 + (c.toNat - 0x41)) * 2)) := by
  have pastDigits : ¬ c.toNat ≤ 0x39 := by omega
  simp [nameCode, BitVec.le_def, hlo, hhi, pastDigits]

/-- A small letter is past the digits and the capitals. -/
theorem nameCode_lower (hlo : 0x61 ≤ c.toNat) (hhi : c.toNat ≤ 0x7A) :
    nameCode c = some (BitVec.ofNat 7 ((10 + (c.toNat - 0x61)) * 2)) := by
  have pastDigits : ¬ c.toNat ≤ 0x39 := by omega
  have pastUpper : ¬ c.toNat ≤ 0x5A := by omega
  simp [nameCode, BitVec.le_def, hlo, hhi, pastDigits, pastUpper]

theorem nameCode_undefined (hdigit : ¬ (0x30 ≤ c.toNat ∧ c.toNat ≤ 0x39))
    (hupper : ¬ (0x41 ≤ c.toNat ∧ c.toNat ≤ 0x5A)) (hlower : ¬ (0x61 ≤ c.toNat ∧ c.toNat ≤ 0x7A))
    (hminus : c ≠ 0x2D#8) (hunderscore : c ≠ 0x5F#8) (hslash : c ≠ 0x2F#8) : nameCode c = none := by
  simp [nameCode, BitVec.le_def, hdigit, hupper, hlower, hminus, hunderscore, hslash]

end NameCode

/-- A code below 128 keeps its value in the 7 bits of a slot. -/
theorem map_toNat_code {n : Nat} (h : n < 2 ^ 7) : (some (BitVec.ofNat 7 n)).map BitVec.toNat = some n := by
  simpa using h

/-- Settles O30: one lemma per range of the table, each code being at most 70; the three signs are single bytes. -/
theorem nameCodeTable : Obligations.NameCodeTable := by
  refine ⟨fun c hlo hhi => ?digit, fun c hlo hhi => ?upper, fun c hlo hhi => ?lower, by decide, by decide, by decide,
    fun c => nameCode_undefined⟩
  case digit =>
    rw [nameCode_digit hlo hhi]
    exact map_toNat_code (by omega)
  case upper =>
    rw [nameCode_upper hlo hhi]
    exact map_toNat_code (by omega)
  case lower =>
    rw [nameCode_lower hlo hhi]
    exact map_toNat_code (by omega)

/-! ### Mixing and CRC (R102 to R104, R120, R121) -/

theorem roundOnce_of_set {acc : Half} (h : acc.getLsbD 15 = true) : roundOnce acc = (acc <<< 1) ^^^ 0x8F57 :=
  if_pos h

theorem roundOnce_of_clear {acc : Half} (h : acc.getLsbD 15 = false) : roundOnce acc = acc <<< 1 :=
  if_neg (Bool.eq_false_iff.1 h)

/-- A value shifted up by `n` within `w + n` bits stands above `n` zero bits. -/
theorem setWidth_shiftLeft_eq_append {w : Nat} (x : BitVec w) (n : Nat) : x.setWidth (w + n) <<< n = x ++ 0#n := by
  rw [BitVec.append_def, BitVec.shiftLeftZeroExtend_eq]
  simp

/-- The code goes into bits 15:9 (R103). -/
theorem mixStep_eq_rounds (acc : Half) (k : BitVec 7) : mixStep acc k = rounds 7 (acc ^^^ (k ++ 0#9)) := by
  rw [← setWidth_shiftLeft_eq_append k 9]
  rfl

/-- The slots in order, from 0 (R104). -/
theorem mix_eq_mixSteps (s0 s1 s2 s3 : BitVec 7) :
    mix ⟨s0, s1, s2, s3⟩ = mixStep (mixStep (mixStep (mixStep 0x0000 s0) s1) s2) s3 := rfl

/-- The byte goes into bits 15:8 (R120). -/
theorem crcStep_eq_rounds (acc : Half) (v : Byte) : crcStep acc v = rounds 8 (acc ^^^ (v ++ 0#8)) := by
  rw [← setWidth_shiftLeft_eq_append v 8]
  rfl

/-- Settles O31: the round by the bit shifted out, a step as its rounds, and CRC16 by its last byte. -/
theorem mixingAndCrcFunctions : Obligations.MixingAndCrcFunctions :=
  ⟨fun _ => roundOnce_of_set, fun _ => roundOnce_of_clear, mixStep_eq_rounds, mix_eq_mixSteps,
    crcStep_eq_rounds, crc16_nil, crc16_snoc⟩

end Sys2Proof.Machine
end

-- HASHU, the commands: what HCLR, HCHR and HMIX answer, and the statements of R106 to R108.
section
/-! The three commands of 41_hash, one lemma per branch of a rule. A branch of HCHR that faults is `raise` of its cause
in every state, also where the command is refused while an error is pending (`unlessPending_raise`). -/

namespace Sys2Proof.Machine

/-! ### HCLR and HMIX (R106, R108) -/

theorem refusedWhilePending_hclr : RefusedWhilePending .hclr :=
  fun _ hpending => unlessPending_of_pending _ hpending

theorem exec_hclr {s : State} (hclear : s.ekind = 0#3) :
    exec .hclr s = .next ({ s with slots := ⟨78, 78, 78, 78⟩, sidx := 0, sdone := false }.completed 0) :=
  unlessPending_of_clear _ hclear

theorem refusedWhilePending_hmix : RefusedWhilePending .hmix :=
  fun _ hpending => unlessPending_of_pending _ hpending

theorem exec_hmix {s : State} (hclear : s.ekind = 0#3) :
    exec .hmix s = .next ({ s with hash := mix s.slots }.completed 0) :=
  unlessPending_of_clear _ hclear

/-- Slot by slot, the mix of the empty name (R108). -/
theorem mix_filled : mix ⟨78, 78, 78, 78⟩ = 0x1DDE := by
  have slot0 : mixStep 0x0000 78 = 0x66F5 := by decide
  have slot1 : mixStep 0x66F5 78 = 0x676C := by decide
  have slot2 : mixStep 0x676C 78 = 0xABEC := by decide
  have slot3 : mixStep 0xABEC 78 = 0x1DDE := by decide
  rw [mix_eq_mixSteps, slot0, slot1, slot2, slot3]

/-- Slot by slot, the mix of the name `SP`: the accumulators after the last round in the trace of R104. -/
theorem mix_SP : mix ⟨56, 50, 78, 78⟩ = 0x9107 := by
  have slot0 : mixStep 0x0000 56 = 0xB3AA := by decide
  have slot1 : mixStep 0xB3AA 50 = 0xD6DD := by decide
  have slot2 : mixStep 0xD6DD 78 = 0x0BA8 := by decide
  have slot3 : mixStep 0x0BA8 78 = 0x9107 := by decide
  rw [mix_eq_mixSteps, slot0, slot1, slot2, slot3]

/-! ### HCHR (R107), in the order of its cases -/

section Hchr
variable {s : State} {c : Byte} {n : Nat} {k : BitVec 7}

theorem refusedWhilePending_hchr (c : Byte) : RefusedWhilePending (.hchr c) :=
  fun _ hpending => unlessPending_of_pending _ hpending

theorem exec_hchr_afterSpace (hclear : s.ekind = 0#3) (hdone : s.sdone = true) :
    exec (.hchr c) s = .next (s.completed 0) := by
  simp [exec, execHchr, unlessPending_of_clear _ hclear, hdone, done_eq_completed]

theorem exec_hchr_space (hclear : s.ekind = 0#3) (hopen : s.sdone = false) :
    exec (.hchr Config.charSpace) s = .next ({ s with sdone := true }.completed 0) := by
  simp [exec, execHchr, unlessPending_of_clear _ hclear, hopen, done_eq_completed]

theorem charDot_ne_charSpace : Config.charDot ≠ Config.charSpace := by decide

theorem exec_hchr_dotFirst (hopen : s.sdone = false) (hnone : s.sidx = 0#3) :
    exec (.hchr Config.charDot) s = raise .nameDotFirst s := by
  simp [exec, execHchr, hopen, hnone, charDot_ne_charSpace, unlessPending_raise]

/-- Where a symbol has been scanned, `SIDX` is not 0. -/
theorem sidx_ne_zero_of_succ (hn : s.sidx.toNat = n + 1) : s.sidx ≠ 0#3 := by
  intro hzero
  simp [hzero] at hn

theorem exec_hchr_dotTwice (hopen : s.sdone = false) (hn : s.sidx.toNat = n + 1) (hk : s.slots.toList[n]? = some k)
    (hmarked : k.getLsbD 0 = true) : exec (.hchr Config.charDot) s = raise .nameDotTwice s := by
  simp [exec, execHchr, hopen, charDot_ne_charSpace, sidx_ne_zero_of_succ hn, hn, get_eq_of_toList hk, hmarked,
    unlessPending_raise, -BitVec.getLsbD_eq_getElem]

theorem exec_hchr_dot (hclear : s.ekind = 0#3) (hopen : s.sdone = false) (hn : s.sidx.toNat = n + 1)
    (hk : s.slots.toList[n]? = some k) (hunmarked : k.getLsbD 0 = false) :
    exec (.hchr Config.charDot) s = .next ({ s with slots := s.slots.set n (k + 1) }.completed 0) := by
  simp [exec, execHchr, unlessPending_of_clear _ hclear, hopen, charDot_ne_charSpace, sidx_ne_zero_of_succ hn, hn,
    get_eq_of_toList hk, hunmarked, done_eq_completed, -BitVec.getLsbD_eq_getElem]

theorem exec_hchr_illegalChar (hopen : s.sdone = false) (hspace : c ≠ Config.charSpace) (hdot : c ≠ Config.charDot)
    (hcode : nameCode c = none) : exec (.hchr c) s = raise .nameIllegalChar s := by
  simp [exec, execHchr, hopen, hspace, hdot, hcode, unlessPending_raise]

theorem ne_charSpace_of_nameCode (hcode : nameCode c = some k) : c ≠ Config.charSpace := by
  rintro rfl
  exact absurd (nameCode_space_dot.1.symm.trans hcode) nofun

theorem ne_charDot_of_nameCode (hcode : nameCode c = some k) : c ≠ Config.charDot := by
  rintro rfl
  exact absurd (nameCode_space_dot.2.symm.trans hcode) nofun

theorem exec_hchr_tooLong (hopen : s.sdone = false) (hcode : nameCode c = some k) (hfull : s.sidx = 4#3) :
    exec (.hchr c) s = raise .nameTooLong s := by
  simp [exec, execHchr, hopen, ne_charSpace_of_nameCode hcode,
    ne_charDot_of_nameCode hcode, hcode, hfull, unlessPending_raise]

theorem exec_hchr_symbol (hclear : s.ekind = 0#3) (hopen : s.sdone = false) (hcode : nameCode c = some k)
    (hroom : s.sidx ≠ 4#3) :
    exec (.hchr c) s =
      .next ({ s with slots := s.slots.set s.sidx.toNat k, sidx := s.sidx + 1 }.completed 0) := by
  simp [exec, execHchr, unlessPending_of_clear _ hclear, hopen,
    ne_charSpace_of_nameCode hcode, ne_charDot_of_nameCode hcode, hcode, hroom, done_eq_completed]

end Hchr

/-! ### The statements -/

/-- Settles O32: opcode `0x10` is of format Z, and HCLR writes the three components of the scanner. -/
theorem hclrRule : Obligations.HclrRule :=
  ⟨rfl, refusedWhilePending_hclr, faultsReservedImmediate_of_opcodesZ (by decide), fun _ => exec_hclr⟩

/-- Settles O33: one lemma per case of R107. The slot file after a dot or a symbol is the model's own write, which
`toList_set` reads as a change of one entry of the list. -/
theorem hchrRule : Obligations.HchrRule := by
  refine ⟨fun _ => rfl, refusedWhilePending_hchr, fun _ _ => exec_hchr_afterSpace, fun s hclear hopen _ => ?_⟩
  refine ⟨exec_hchr_space hclear hopen,
    fun hnone => (exec_hchr_dotFirst hopen hnone).trans (raise_of_clear .nameDotFirst hclear),
    fun n k hn hk => ⟨fun hmarked => ?dotTwice, fun hunmarked => ?dot⟩,
    fun c hspace hdot hcode =>
      (exec_hchr_illegalChar hopen hspace hdot hcode).trans (raise_of_clear .nameIllegalChar hclear),
    fun c k hcode hfull => (exec_hchr_tooLong hopen hcode hfull).trans (raise_of_clear .nameTooLong hclear),
    fun c k hcode hroom => ?symbol⟩
  case dotTwice =>
    exact (exec_hchr_dotTwice hopen hn hk hmarked).trans (raise_of_clear .nameDotTwice hclear)
  case dot =>
    exact ⟨s.slots.set n (k + 1), toList_set .., exec_hchr_dot hclear hopen hn hk hunmarked⟩
  case symbol =>
    have notFull : s.sidx ≠ 4#3 := fun hfull => absurd hroom (by simp [hfull])
    exact ⟨s.slots.set s.sidx.toNat k, toList_set .., exec_hchr_symbol hclear hopen hcode notFull⟩

/-- Settles O34: opcode `0x12` is of format Z, HMIX writes `HASH` alone, and the two mixes are those R108 works out. -/
theorem hmixRule : Obligations.HmixRule :=
  ⟨rfl, refusedWhilePending_hmix, faultsReservedImmediate_of_opcodesZ (by decide), fun _ => exec_hmix,
    mix_filled, mix_SP⟩

end Sys2Proof.Machine
end

-- CRCU, the commands: what CCLR, CBYTE and CBUF answer, and the statements of R122 to R124.
section
/-! The three commands of 42_crc16. Each writes `CRC` alone; CBYTE starts from the `CRC` it finds, CBUF from
`CRC_INIT`. -/

namespace Sys2Proof.Machine

section Crcu
variable {s : State} {v b : Byte}

/-! ### CCLR (R122) -/

theorem refusedWhilePending_cclr : RefusedWhilePending .cclr :=
  fun _ hpending => unlessPending_of_pending _ hpending

theorem exec_cclr (hclear : s.ekind = 0#3) : exec .cclr s = .next ({ s with crc := 0x0000 }.completed 0) :=
  unlessPending_of_clear _ hclear

/-! ### CBYTE (R123) -/

theorem refusedWhilePending_cbyte (v : Byte) : RefusedWhilePending (.cbyte v) :=
  fun _ hpending => unlessPending_of_pending _ hpending

theorem exec_cbyte (hclear : s.ekind = 0#3) :
    exec (.cbyte v) s = .next ({ s with crc := crcStep s.crc v }.completed 0) :=
  unlessPending_of_clear _ hclear

/-- The law behind CRCOF: each CBYTE appends its byte to the list whose CRC16 the register holds. -/
theorem exec_cbyte_of_crc16 {bytes : List Byte} (hclear : s.ekind = 0#3) (hcrc : s.crc = crc16 bytes) :
    exec (.cbyte v) s = .next ({ s with crc := crc16 (bytes ++ [v]) }.completed 0) := by
  rw [crc16_snoc, ← hcrc]
  exact exec_cbyte hclear

/-! ### CBUF (R124) -/

theorem refusedWhilePending_cbuf (b : Byte) : RefusedWhilePending (.cbuf b) :=
  fun _ hpending => unlessPending_of_pending _ hpending

theorem exec_cbuf {l : List Byte} (hclear : s.ekind = 0#3) (hview : s.bufferView[b.toNat]? = some l) :
    exec (.cbuf b) s = .next ({ s with crc := crc16 l }.completed 0) := by
  obtain ⟨x, hx, rfl⟩ := bufOf?_of_bufferView hview
  simp [exec, execCbuf, unlessPending_of_clear _ hclear, hx, done_eq_completed]

end Crcu

/-! ### The statements -/

/-- Settles O38: opcode `0x20` is of format Z, and `CRC_INIT` is 0. -/
theorem cclrRule : Obligations.CclrRule :=
  ⟨rfl, refusedWhilePending_cclr, faultsReservedImmediate_of_opcodesZ (by decide), fun _ => exec_cclr⟩

/-- Settles O39: the append law is the last byte of `crc16_snoc`, and the three worked steps are evaluated. -/
theorem cbyteRule : Obligations.CbyteRule :=
  ⟨fun _ => rfl, refusedWhilePending_cbyte, fun _ _ => exec_cbyte, fun _ _ _ => exec_cbyte_of_crc16,
    by decide, by decide, by decide⟩

/-- Settles O40: an identifier past 3 is not well formed, every other names a buffer of the view. -/
theorem cbufRule : Obligations.CbufRule :=
  ⟨fun _ => rfl, refusedWhilePending_cbuf, fun _ _ hclear =>
    ⟨fun hb => exec_not_wellFormed_of_clear (legalBuffer_eq_false hb) hclear, fun _ => exec_cbuf hclear⟩⟩

end Sys2Proof.Machine
end

-- VALU, the operands: the reserved words of format M, the integer ranges, and the bytes of a 32-bit value.
section
/-! What the value codec's commands share: the reserved `imm` of format M (R62, R66), the ranges of the two integer
packs (R132, R133), the extensions of the two integer unpacks (R137, R138), and the byte order of fields in `PAY`
(R45). -/

namespace Sys2Proof.Machine

/-! ### Reserved modifiers (R62, R66) -/

/-- A word of format M with one modifier bit and `imm` past 1 is one R66 lists. -/
theorem illegalImmediate_of_opcodesM1 {opc imm : Byte} (hopc : opc ∈ opcodesM1) (himm : 1 < imm.toNat) :
    illegalImmediate (opc ++ imm) = true :=
  illegalImmediate_iff.2 (.inr (.inr (.inr (.inl ⟨by simpa using hopc, by simpa using himm⟩))))

theorem faultsReservedImmediate_of_opcodesM1 {opc : Byte} (hopc : opc ∈ opcodesM1) :
    FaultsReservedImmediate opc (1 < ·.toNat) :=
  fun s _ wdata hclear himm => reservedImmediatesFault.1 s _ wdata hclear (illegalImmediate_of_opcodesM1 hopc himm)

/-- A word of format M with two modifier bits and `imm` past 3 is one R66 lists. -/
theorem illegalImmediate_of_opcodesM2 {opc imm : Byte} (hopc : opc ∈ opcodesM2) (himm : 3 < imm.toNat) :
    illegalImmediate (opc ++ imm) = true :=
  illegalImmediate_iff.2 (.inr (.inr (.inr (.inr ⟨by simpa using hopc, by simpa using himm⟩))))

theorem faultsReservedImmediate_of_opcodesM2 {opc : Byte} (hopc : opc ∈ opcodesM2) :
    FaultsReservedImmediate opc (3 < ·.toNat) :=
  fun s _ wdata hclear himm => reservedImmediatesFault.1 s _ wdata hclear (illegalImmediate_of_opcodesM2 hopc himm)

/-! ### Integer ranges (R132, R133) -/

/-- The sign extension of the low `w` bits, as an integer, is the value's balanced remainder modulo `2 ^ w`. -/
theorem toInt_signExtend_low {w : Nat} (hw : w ≤ 32) (v : Word) :
    ((v.setWidth w).signExtend 32).toInt = v.toInt.bmod (2 ^ w) := by
  rw [BitVec.toInt_signExtend_of_le hw, BitVec.toInt_setWidth, BitVec.toInt_eq_toNat_bmod v,
    Int.bmod_bmod_of_dvd (Nat.pow_dvd_pow 2 hw)]

/-- An integer is its own balanced remainder modulo twice `m` exactly from `-m` to `m - 1`. -/
theorem bmod_two_mul_eq_self_iff {x : Int} {m : Nat} (hm : 0 < m) :
    x.bmod (m * 2) = x ↔ -(m : Int) ≤ x ∧ x < m := by
  rw [Int.bmod_eq_iff (by omega), Int.sub_self]
  simp only [dvd_zero, and_true, Nat.cast_mul, Nat.cast_ofNat]
  omega

/-- A value is the sign extension of its low `n + 1` bits exactly from `-2 ^ n` to `2 ^ n - 1`. -/
theorem fitsSigned_iff {n : Nat} {v : Word} (hn : n < 32) :
    fitsSigned (n + 1) v = true ↔ -(2 : Int) ^ n ≤ v.toInt ∧ v.toInt < 2 ^ n := by
  rw [fitsSigned, beq_iff_eq, ← BitVec.toInt_inj, toInt_signExtend_low hn, eq_comm, Nat.pow_succ,
    bmod_two_mul_eq_self_iff (Nat.two_pow_pos n)]
  simp

theorem fitsInteger_unsigned_iff {w : Nat} {v : Word} : fitsInteger false w v = true ↔ v.toNat < 2 ^ w :=
  fitsUnsigned_iff

theorem fitsInteger_signed_iff {n : Nat} {v : Word} (hn : n < 32) :
    fitsInteger true (n + 1) v = true ↔ -(2 : Int) ^ n ≤ v.toInt ∧ v.toInt < 2 ^ n :=
  fitsSigned_iff hn

/-! ### Extensions (R137, R138) -/

theorem extendInteger_signed {w : Nat} (v : BitVec w) : extendInteger true v = v.signExtend 32 := rfl

theorem extendInteger_unsigned_byte (b : Byte) : extendInteger false b = 0#24 ++ b := by
  simp [extendInteger, BitVec.setWidth_eq_append]

theorem extendInteger_unsigned_half (v : Half) : extendInteger false v = 0#16 ++ v := by
  simp [extendInteger, BitVec.setWidth_eq_append]

/-- A half whose high byte is 0 is not negative, so both extensions pad it with zeros (R137). -/
theorem extendInteger_zeroPadded (signed : Bool) (b : Byte) : extendInteger signed (0#8 ++ b) = 0#24 ++ b := by
  have nonneg : (0#8 ++ b).msb = false := BitVec.msb_append
  have zeros : (0#16 ++ (0#8 ++ b) : Word) = 0#24 ++ b := BitVec.append_assoc'
  cases signed with
  | false => exact (extendInteger_unsigned_half _).trans zeros
  | true =>
    rw [extendInteger_signed, BitVec.signExtend_eq_setWidth_of_msb_false nonneg]
    exact (extendInteger_unsigned_half _).trans zeros

/-! ### Byte order (R45) -/

/-- The low half of a 32-bit value has the value's two low bytes. -/
theorem halfBytes_low (v : Word) :
    halfBytes (v.extractLsb' 0 16) = [v.extractLsb' 8 8, v.extractLsb' 0 8] := by
  simp [halfBytes, BitVec.extractLsb'_extractLsb'_of_le]

theorem low_byte_append {n : Nat} (v : BitVec n) (b : Byte) : (v ++ b).extractLsb' 0 8 = b := by
  rw [BitVec.extractLsb'_append_eq_of_add_le (by decide), BitVec.extractLsb'_eq_self]

theorem high_byte_append {n : Nat} (v : BitVec n) (b : Byte) (k : Nat) :
    (v ++ b).extractLsb' (k + 8) 8 = v.extractLsb' k 8 := by
  rw [BitVec.extractLsb'_append_eq_of_le (by omega), Nat.add_sub_cancel]

@[simp] theorem wordBytes_append (v3 v2 v1 v0 : Byte) : wordBytes (v3 ++ v2 ++ v1 ++ v0) = [v3, v2, v1, v0] := by
  have byte1 : (v3 ++ v2 ++ v1 ++ v0).extractLsb' 8 8 = v1 :=
    (high_byte_append _ v0 0).trans (low_byte_append _ v1)
  have byte2 : (v3 ++ v2 ++ v1 ++ v0).extractLsb' 16 8 = v2 :=
    (high_byte_append _ v0 8).trans ((high_byte_append _ v1 0).trans (low_byte_append _ v2))
  have byte3 : (v3 ++ v2 ++ v1 ++ v0).extractLsb' 24 8 = v3 :=
    (high_byte_append _ v0 16).trans ((high_byte_append _ v1 8).trans (hi_append v3 v2))
  rw [wordBytes, byte1, byte2, byte3, low_byte_append]

end Sys2Proof.Machine
end

-- VALU, pack: what PKI16, PKCHR, PKF32, PKF24 and PKSTR answer, and the statements of R132 to R136.
section
/-! The five pack commands, one lemma per branch of a rule. Each that completes replaces the whole content of `PAY`. -/

namespace Sys2Proof.Machine

section Pack
variable {s : State} {signed : Bool}

/-! ### Integers (R132, R133) -/

theorem exec_pki16_fits (hclear : s.ekind = 0#3) (hfits : fitsInteger signed 16 s.val = true) :
    exec (.pki16 signed) s =
      .next ({ s with pay := [s.val.extractLsb' 8 8, s.val.extractLsb' 0 8] }.completed 0) := by
  simp [exec, execPki16, unlessPending_of_clear _ hclear, hfits, halfBytes_low, done_eq_completed]

theorem exec_pki16_outOfRange (hout : ¬ fitsInteger signed 16 s.val = true) :
    exec (.pki16 signed) s = raise .operandRange s := by
  simp [exec, execPki16, hout, unlessPending_raise]

theorem exec_pkchr_fits (hclear : s.ekind = 0#3) (hfits : fitsInteger signed 8 s.val = true) :
    exec (.pkchr signed) s = .next ({ s with pay := [s.val.extractLsb' 0 8] }.completed 0) := by
  simp [exec, execPkchr, unlessPending_of_clear _ hclear, hfits, done_eq_completed]

theorem exec_pkchr_outOfRange (hout : ¬ fitsInteger signed 8 s.val = true) :
    exec (.pkchr signed) s = raise .operandRange s := by
  simp [exec, execPkchr, hout, unlessPending_raise]

/-! ### Floats (R134, R135) -/

theorem exec_pkf32 (time index : Bool) (hclear : s.ekind = 0#3) :
    exec (.pkf32 time index) s =
      .next ({ s with pay := float32Payload time index s.val s.vtime s.vidx }.completed 0) :=
  unlessPending_of_clear _ hclear

/-- The payload of R134 from the bytes of the three registers. -/
theorem float32Payload_append (time index : Bool) (v3 v2 v1 v0 t1 t0 i1 i0 : Byte) :
    float32Payload time index (v3 ++ v2 ++ v1 ++ v0) (t1 ++ t0) (i1 ++ i0) =
      [v3, v2, v1, v0] ++ (if time then [t1, t0] else []) ++ (if index then [i1, i0] else []) := by
  simp only [float32Payload, wordBytes_append, halfBytes_append]

theorem exec_pkf24 {v3 v2 v1 v0 : Byte} (hclear : s.ekind = 0#3) (hval : s.val = v3 ++ v2 ++ v1 ++ v0) :
    exec .pkf24 s = .next ({ s with pay := [v3, v2, v1] }.completed 0) := by
  simp [exec, execPkf24, unlessPending_of_clear _ hclear, hval, done_eq_completed]

/-! ### Strings (R136) -/

theorem exec_pkstr (hclear : s.ekind = 0#3) :
    exec .pkstr s = .next ({ s with pay := s.str.reverse }.completed 0) :=
  unlessPending_of_clear _ hclear

end Pack

/-! ### The statements -/

/-- Settles O43: the two range checks are the intervals of R132, so each clause decides `fitsInteger` at 16 bits. -/
theorem pki16Rule : Obligations.Pki16Rule := by
  refine ⟨rfl, rfl, fun _ _ => unlessPending_of_pending _, faultsReservedImmediate_of_opcodesM1 (by decide),
    fun s hclear => ?_⟩
  have unsignedRange : fitsInteger false 16 s.val = true ↔ s.val.toNat < 65536 := fitsInteger_unsigned_iff
  have signedRange : fitsInteger true 16 s.val = true ↔ -32768 ≤ s.val.toInt ∧ s.val.toInt < 32768 :=
    fitsInteger_signed_iff (n := 15) (by decide)
  have fault := raise_of_clear .operandRange hclear
  exact ⟨fun hout => (exec_pki16_outOfRange (by rw [unsignedRange]; omega)).trans fault,
    fun hout => (exec_pki16_outOfRange (by rw [signedRange]; omega)).trans fault,
    fun hin => exec_pki16_fits hclear (unsignedRange.2 (by omega)),
    fun hlo hhi => exec_pki16_fits hclear (signedRange.2 (by omega))⟩

/-- Settles O44: as O43, with the intervals of R133 at 8 bits. -/
theorem pkchrRule : Obligations.PkchrRule := by
  refine ⟨rfl, rfl, fun _ _ => unlessPending_of_pending _, faultsReservedImmediate_of_opcodesM1 (by decide),
    fun s hclear => ?_⟩
  have unsignedRange : fitsInteger false 8 s.val = true ↔ s.val.toNat < 256 := fitsInteger_unsigned_iff
  have signedRange : fitsInteger true 8 s.val = true ↔ -128 ≤ s.val.toInt ∧ s.val.toInt < 128 :=
    fitsInteger_signed_iff (n := 7) (by decide)
  have fault := raise_of_clear .operandRange hclear
  exact ⟨fun hout => (exec_pkchr_outOfRange (by rw [unsignedRange]; omega)).trans fault,
    fun hout => (exec_pkchr_outOfRange (by rw [signedRange]; omega)).trans fault,
    fun hin => exec_pkchr_fits hclear (unsignedRange.2 (by omega)),
    fun hlo hhi => exec_pkchr_fits hclear (signedRange.2 (by omega))⟩

/-- Settles O45: one equation for the four modifiers, read at each of them. -/
theorem pkf32Rule : Obligations.Pkf32Rule := by
  refine ⟨rfl, rfl, rfl, rfl, fun _ _ _ => unlessPending_of_pending _,
    faultsReservedImmediate_of_opcodesM2 (by decide), fun s v3 v2 v1 v0 t1 t0 i1 i0 hclear hval htime hidx => ?_⟩
  have packs (time index : Bool) :
      exec (.pkf32 time index) s = .next ({ s with
        pay := [v3, v2, v1, v0] ++ (if time then [t1, t0] else []) ++
          (if index then [i1, i0] else []) }.completed 0) := by
    rw [exec_pkf32 time index hclear, hval, htime, hidx, float32Payload_append]
  exact ⟨packs false false, packs true false, packs false true, packs true true⟩

/-- Settles O46: opcode `0x33` is of format Z, and the first three bytes of `VAL` stay. -/
theorem pkf24Rule : Obligations.Pkf24Rule :=
  ⟨rfl, fun _ => unlessPending_of_pending _, faultsReservedImmediate_of_opcodesZ (by decide),
    fun _ _ _ _ _ => exec_pkf24⟩

/-- Settles O47: the payload is the reversed string, whatever its length. -/
theorem pkstrRule : Obligations.PkstrRule :=
  ⟨rfl, fun _ => unlessPending_of_pending _, faultsReservedImmediate_of_opcodesZ (by decide),
    fun _ hclear => ⟨_, exec_pkstr hclear, List.length_reverse, fun _ => List.getElem?_reverse⟩⟩

end Sys2Proof.Machine
end

-- VALU, unpack: what UPI16, UPCHR, UPF32, UPF24 and UPSTR answer, and the statements of R137 to R141.
section
/-! The five unpack commands, one lemma per branch of a rule. `PAY` is read and never changed; a payload of the wrong
length raises BadLength also where the command is refused while an error is pending (`unlessPending_raise`). -/

namespace Sys2Proof.Machine

section Unpack
variable {s : State} {signed : Bool}

/-! ### Integers (R137, R138) -/

theorem exec_upi16_one {b : Byte} (hclear : s.ekind = 0#3) (hpay : s.pay = [b]) :
    exec (.upi16 signed) s = .next ({ s with val := 0#24 ++ b }.completed 0) := by
  simp [exec, execUpi16, unlessPending_of_clear _ hclear, hpay, extendInteger_zeroPadded, done_eq_completed]

theorem exec_upi16_two {b1 b0 : Byte} (hclear : s.ekind = 0#3) (hpay : s.pay = [b1, b0]) :
    exec (.upi16 signed) s = .next ({ s with val := extendInteger signed (b1 ++ b0) }.completed 0) := by
  simp [exec, execUpi16, unlessPending_of_clear _ hclear, hpay, done_eq_completed]

theorem exec_upi16_badLength (hbad : s.pay.length = 0 ∨ 2 < s.pay.length) :
    exec (.upi16 signed) s = raise .badLength s := by
  match hpay : s.pay with
  | [] | _ :: _ :: _ :: _ => simp [exec, execUpi16, hpay, unlessPending_raise]
  | [_] | [_, _] => simp [hpay] at hbad

theorem exec_upchr_one {b : Byte} (hclear : s.ekind = 0#3) (hpay : s.pay = [b]) :
    exec (.upchr signed) s = .next ({ s with val := extendInteger signed b }.completed 0) := by
  simp [exec, execUpchr, unlessPending_of_clear _ hclear, hpay, done_eq_completed]

theorem exec_upchr_badLength (hbad : s.pay.length ≠ 1) : exec (.upchr signed) s = raise .badLength s := by
  match hpay : s.pay with
  | [] | _ :: _ :: _ => simp [exec, execUpchr, hpay, unlessPending_raise]
  | [_] => simp [hpay] at hbad

/-! ### Floats (R139, R140) -/

theorem exec_upf32_badLength {time index : Bool} (hbad : s.pay.length ≠ float32Length time index) :
    exec (.upf32 time index) s = raise .badLength s := by
  simp [exec, execUpf32, hbad, unlessPending_raise]

/-- The fields at their places, time before index; the register of an absent one keeps its value. -/
theorem exec_upf32 {time index : Bool} {v3 v2 v1 v0 : Byte} {fields : List Byte} (hclear : s.ekind = 0#3)
    (hpay : s.pay = [v3, v2, v1, v0] ++ fields) (hlen : fields.length = 2 * time.toNat + 2 * index.toNat) :
    exec (.upf32 time index) s = .next ({ s with
      val := v3 ++ v2 ++ v1 ++ v0
      vtime := if time then halfAt fields 0 else s.vtime
      vidx := if index then halfAt fields (2 * time.toNat) else s.vidx }.completed 0) := by
  have hright : s.pay.length = float32Length time index := by
    simp [hpay, hlen, float32Length]; omega
  have hval : halfAt s.pay 0 ++ halfAt s.pay 2 = v3 ++ v2 ++ v1 ++ v0 := by
    rw [hpay]
    exact BitVec.append_assoc' (x₁ := v3 ++ v2) (x₂ := v1) (x₃ := v0)
  have hfield (i : Nat) : halfAt s.pay (4 + i) = halfAt fields i := by
    simp [hpay, halfAt, byteAt, Nat.add_comm 4]
  simp only [exec, execUpf32, unlessPending_of_clear _ hclear, hright, ne_eq, not_true_eq_false, if_false, hval,
    hfield 0, hfield (2 * time.toNat), done_eq_completed]

theorem exec_upf24_three {b2 b1 b0 : Byte} (hclear : s.ekind = 0#3) (hpay : s.pay = [b2, b1, b0]) :
    exec .upf24 s = .next ({ s with val := b2 ++ b1 ++ b0 ++ 0#8 }.completed 0) := by
  simp [exec, execUpf24, unlessPending_of_clear _ hclear, hpay, done_eq_completed]

theorem exec_upf24_badLength (hbad : s.pay.length ≠ 3) : exec .upf24 s = raise .badLength s := by
  match hpay : s.pay with
  | [] | [_] | [_, _] | _ :: _ :: _ :: _ :: _ => simp [exec, execUpf24, hpay, unlessPending_raise]
  | [_, _, _] => simp [hpay] at hbad

/-! ### Strings (R141) -/

theorem exec_upstr (hclear : s.ekind = 0#3) :
    exec .upstr s = .next ({ s with str := s.pay.reverse }.completed 0) :=
  unlessPending_of_clear _ hclear

end Unpack

/-! ### The statements -/

/-- Settles O48: one byte is a half with high byte 0, which both extensions pad with zeros. -/
theorem upi16Rule : Obligations.Upi16Rule := by
  refine ⟨rfl, rfl, fun _ _ => unlessPending_of_pending _, faultsReservedImmediate_of_opcodesM1 (by decide),
    fun s hclear => ⟨fun _ hbad => (exec_upi16_badLength hbad).trans (raise_of_clear .badLength hclear),
      fun _ _ => exec_upi16_one hclear, fun b1 b0 hpay => ⟨?unsigned, exec_upi16_two hclear hpay⟩⟩⟩
  case unsigned =>
    rw [← extendInteger_unsigned_half]
    exact exec_upi16_two hclear hpay

/-- Settles O49: the one byte and its two extensions. -/
theorem upchrRule : Obligations.UpchrRule := by
  refine ⟨rfl, rfl, fun _ _ => unlessPending_of_pending _, faultsReservedImmediate_of_opcodesM1 (by decide),
    fun s hclear => ⟨fun _ hbad => (exec_upchr_badLength hbad).trans (raise_of_clear .badLength hclear),
      fun b hpay => ⟨?unsigned, exec_upchr_one hclear hpay⟩⟩⟩
  case unsigned =>
    rw [← extendInteger_unsigned_byte]
    exact exec_upchr_one hclear hpay

/-- Settles O50: one lemma for the four modifiers; the lengths 4, 6 and 8 are `float32Length` at each. -/
theorem upf32Rule : Obligations.Upf32Rule := by
  refine ⟨rfl, rfl, rfl, rfl, fun _ _ _ => unlessPending_of_pending _,
    faultsReservedImmediate_of_opcodesM2 (by decide), fun s hclear => ?_⟩
  have fault {time index : Bool} (hbad : s.pay.length ≠ float32Length time index) :
      exec (.upf32 time index) s = .next (s.failed 2 0x10) :=
    (exec_upf32_badLength hbad).trans (raise_of_clear .badLength hclear)
  refine ⟨fun hbad => fault hbad, fun hbad => ⟨fault hbad, fault hbad⟩, fun hbad => fault hbad,
    fun v3 v2 v1 v0 x1 x0 y1 y0 => ⟨?neither, fun hpay => ⟨?time, ?index⟩, ?both⟩⟩
  case neither => exact fun hpay => exec_upf32 (fields := []) hclear hpay rfl
  case time => exact exec_upf32 (fields := [x1, x0]) hclear hpay rfl
  case index => exact exec_upf32 (fields := [x1, x0]) hclear hpay rfl
  case both => exact fun hpay => exec_upf32 (fields := [x1, x0, y1, y0]) hclear hpay rfl

/-- Settles O51: opcode `0x43` is of format Z; three bytes stand above a low byte of 0, as R140 has it. -/
theorem upf24Rule : Obligations.Upf24Rule :=
  ⟨rfl, fun _ => unlessPending_of_pending _, faultsReservedImmediate_of_opcodesZ (by decide), fun _ hclear =>
    ⟨fun hbad => (exec_upf24_badLength hbad).trans (raise_of_clear .badLength hclear),
      fun _ _ _ => exec_upf24_three hclear⟩⟩

/-- Settles O52: the string is the reversed payload, whatever its length. -/
theorem upstrRule : Obligations.UpstrRule :=
  ⟨rfl, fun _ => unlessPending_of_pending _, faultsReservedImmediate_of_opcodesZ (by decide),
    fun _ hclear => ⟨_, exec_upstr hclear, List.length_reverse, fun _ => List.getElem?_reverse⟩⟩

end Sys2Proof.Machine
end

-- FRMU: how a Frame is built and taken apart, what FPACK and FUNPK answer, and the statements of R154 and R155.
section
/-! The two Frame commands of 44_frame. First the fields of a Frame, in both directions: the address bytes FPACK writes
(R151 to R153), and what FUNPK reads from a Frame given by its bytes (R150, R155). Then one lemma per branch of a rule;
a branch that faults is `raise` of its cause in every state (`unlessPending_raise`). -/

namespace Sys2Proof.Machine

/-! ### The address bytes (R152, R153) -/

/-- The check of 8-bit mode: the three high bits of an address are 0 exactly up to `0xFF`. -/
theorem addressHigh_eq_zero_iff {addr : BitVec 11} : addr.extractLsb' 8 3 = 0#3 ↔ addr.toNat ≤ 0xFF := by
  rw [← BitVec.toNat_inj, BitVec.extractLsb'_toNat, Nat.shiftRight_eq_div_pow, BitVec.toNat_zero]
  have := addr.isLt
  omega

theorem address_toNat_short (b0 : Byte) : (0#3 ++ b0 : BitVec 11).toNat = b0.toNat :=
  (BitVec.toNat_append 0#3 b0).trans (by simp)

section Layout
variable {al11 : Bool} {addr : BitVec 11} {b0 : Byte} {alo : BitVec 3}
  (hlayout : (al11 = false ∧ addr = 0#3 ++ b0 ∧ alo = 0#3) ∨ (al11 = true ∧ addr = b0 ++ alo))
include hlayout

theorem addressBytes_of_layout : addressByte al11 addr = b0 ∧ addressLow al11 addr = alo := by
  rcases hlayout with ⟨rfl, rfl, rfl⟩ | ⟨rfl, rfl⟩
  · exact ⟨BitVec.extractLsb'_append_eq_right, rfl⟩
  · exact ⟨BitVec.extractLsb'_append_eq_left, BitVec.extractLsb'_append_eq_right⟩

/-- An address that is laid out in the one byte of 8-bit mode is in range. -/
theorem address_le_of_layout (hshort : al11 = false) : addr.toNat ≤ 0xFF := by
  rcases hlayout with ⟨_, rfl, _⟩ | ⟨hlong, _⟩
  · rw [address_toNat_short]
    exact Nat.le_of_lt_succ b0.isLt
  · exact absurd (hshort.symm.trans hlong) nofun

/-- The bytes of R150 before the CRC: the modes differ in the two address fields alone. -/
theorem frameBody_of_layout (h1 h0 : Byte) (request : Bool) (pay : List Byte) :
    frameBody al11 addr (h1 ++ h0) request pay =
      [b0, alo ++ BitVec.ofBool request ++ sizeField request pay.length, h1, h0] ++ pay := by
  obtain ⟨hbyte, hlow⟩ := addressBytes_of_layout hlayout
  simp [frameBody, flagsByte, hbyte, hlow]

end Layout

/-! ### FPACK (R154) -/

section Fpack
variable {s : State} {q : Bool}

theorem refusedWhilePending_fpack (q : Bool) : RefusedWhilePending (.fpack q) :=
  fun _ hpending => unlessPending_of_pending _ hpending

theorem exec_fpack_requestWithPayload (hpay : s.pay ≠ []) :
    exec (.fpack true) s = raise .requestWithPayload s := by
  simp [exec, execFpack, hpay, unlessPending_raise]

/-- A frame or a request without payload passes the first check. -/
theorem requestCheck_passes (hrequest : q = true → s.pay = []) : (q && !s.pay.isEmpty) = false := by
  simpa using hrequest

theorem exec_fpack_addressRange (hrequest : q = true → s.pay = []) (hshort : s.al11 = false)
    (hwide : 0xFF < s.addr.toNat) : exec (.fpack q) s = raise .addressRange s := by
  simp only [exec, execFpack, requestCheck_passes hrequest]
  simp [hshort, addressHigh_eq_zero_iff, hwide, unlessPending_raise]

theorem exec_fpack (hclear : s.ekind = 0#3) (hrequest : q = true → s.pay = [])
    (haddr : s.al11 = false → s.addr.toNat ≤ 0xFF) {body : List Byte}
    (hbody : frameBody s.al11 s.addr s.hash q s.pay = body) :
    exec (.fpack q) s =
      .next ({ s with frm := body ++ halfBytes (crc16 body), crc := crc16 body }.completed 0) := by
  have inRange : (!s.al11 && s.addr.extractLsb' 8 3 != 0#3) = false := by
    simpa [addressHigh_eq_zero_iff] using haddr
  simp [exec, execFpack, unlessPending_of_clear _ hclear, requestCheck_passes hrequest, inRange, hbody,
    done_eq_completed]

end Fpack

/-! ### The fields of a Frame (R150, R155) -/

section Fields
variable (b0 b1 b2 b3 c1 c0 : Byte) (l p : List Byte) (al11 : Bool)

@[simp] theorem covered_append_crc : covered (l ++ [c1, c0]) = l := by
  simp [covered]

@[simp] theorem crcField_append_crc : crcField (l ++ [c1, c0]) = c1 ++ c0 := by
  simp [crcField, halfAt, byteAt]

theorem frameSize_cons : frameSize (b0 :: b1 :: l) = b1.toNat % 16 := by
  simp [frameSize, byteAt]

theorem frameAddress_cons : frameAddress al11 (b0 :: b1 :: l) =
    if al11 then b0 ++ b1.extractLsb' 5 3 else 0#3 ++ b0 := by
  simp [frameAddress, byteAt, BitVec.setWidth_eq_append]

theorem framePayload_append_crc : framePayload ([b0, b1, b2, b3] ++ p ++ [c1, c0]) = p := by
  rw [framePayload, covered_append_crc]
  rfl

end Fields

/-! ### FUNPK (R155) -/

section Funpk
variable {s : State} {b0 b1 b2 b3 c1 c0 : Byte} {p : List Byte}

theorem refusedWhilePending_funpk : RefusedWhilePending .funpk :=
  fun _ hpending => unlessPending_of_pending _ hpending

theorem exec_funpk_tooShort (hlen : s.frm.length < 6) : exec .funpk s = raise .frameTooShort s := by
  simp [exec, execFunpk, Config.minFrame, hlen, unlessPending_raise]

/-- Past the length check, FUNPK in the bytes of the Frame. -/
theorem exec_funpk_of_bytes (hfrm : s.frm = [b0, b1, b2, b3] ++ p ++ [c1, c0]) :
    exec .funpk s = unlessPending s (
      if crc16 ([b0, b1, b2, b3] ++ p) ≠ c1 ++ c0 then raise .crcMismatch s
      else if b1.toNat % 16 ≠ p.length then raise .sizeMismatch s
      else .next ({ s with
        rxaddr := if s.al11 then b0 ++ b1.extractLsb' 5 3 else 0#3 ++ b0
        rxflags := b1
        rxhash := b2 ++ b3
        rxcrc := c1 ++ c0
        crc := crc16 ([b0, b1, b2, b3] ++ p)
        pay := p }.completed 0)) := by
  have hlen : s.frm.length = p.length + 6 := by simp [hfrm]
  have hcovered : covered s.frm = [b0, b1, b2, b3] ++ p := hfrm ▸ covered_append_crc ..
  have hcrc : crcField s.frm = c1 ++ c0 := hfrm ▸ crcField_append_crc ..
  have hsize : frameSize s.frm = b1.toNat % 16 := hfrm ▸ frameSize_cons ..
  have haddr : frameAddress s.al11 s.frm = if s.al11 then b0 ++ b1.extractLsb' 5 3 else 0#3 ++ b0 :=
    hfrm ▸ frameAddress_cons ..
  have hflags : byteAt s.frm 1 = b1 := by rw [hfrm]; rfl
  have hhash : halfAt s.frm 2 = b2 ++ b3 := by rw [hfrm]; rfl
  have hpay : framePayload s.frm = p := hfrm ▸ framePayload_append_crc ..
  simp [exec, execFunpk, Config.minFrame, hlen, hcovered, hcrc, hsize, haddr, hflags, hhash, hpay,
    done_eq_completed]

end Funpk

/-! ### The statements -/

/-- Settles O55: the two layouts differ in the address bytes alone, and an address that fills them is in range. -/
theorem fpackRule : Obligations.FpackRule := by
  refine ⟨rfl, rfl, refusedWhilePending_fpack, faultsReservedImmediate_of_opcodesM1 (by decide),
    fun s hclear => ⟨fun hpay => ?withPayload, fun hshort hwide => ?tooWide,
      fun q b0 alo h1 h0 hrequest hhash hlayout => ?builds⟩⟩
  case withPayload =>
    exact (exec_fpack_requestWithPayload hpay).trans (raise_of_clear .requestWithPayload hclear)
  case tooWide =>
    have fault := raise_of_clear .addressRange hclear
    exact ⟨(exec_fpack_addressRange (q := false) nofun hshort hwide).trans fault,
      fun hempty => (exec_fpack_addressRange (fun _ => hempty) hshort hwide).trans fault⟩
  case builds =>
    intro size body c1 c0 hcrc
    have hbody : frameBody s.al11 s.addr s.hash q s.pay = body := by
      rw [hhash]
      exact frameBody_of_layout hlayout h1 h0 q s.pay
    rw [exec_fpack hclear hrequest (address_le_of_layout hlayout) hbody, hcrc, halfBytes_append]

/-- Settles O56: past the length check the clauses are the branches of `exec_funpk_of_bytes`, in their order. -/
theorem funpkRule : Obligations.FunpkRule := by
  refine ⟨rfl, refusedWhilePending_funpk, faultsReservedImmediate_of_opcodesZ (by decide), fun s hclear =>
    ⟨fun hlen => (exec_funpk_tooShort hlen).trans (raise_of_clear .frameTooShort hclear),
      fun b0 b1 b2 b3 c1 c0 p hfrm => ?_⟩⟩
  rw [exec_funpk_of_bytes hfrm, unlessPending_of_clear _ hclear]
  refine ⟨fun hcrc => ?crcMismatch, fun hcrc hsize => ?sizeMismatch, fun hcrc hsize => ?accepted⟩
  case crcMismatch =>
    rw [if_pos hcrc]
    exact raise_of_clear .crcMismatch hclear
  case sizeMismatch =>
    rw [if_neg (not_not.2 hcrc), if_pos hsize]
    exact raise_of_clear .sizeMismatch hclear
  case accepted =>
    rw [if_neg (not_not.2 hcrc), if_neg (not_not.2 hsize), hcrc]

end Sys2Proof.Machine
end

-- FRMU, the RawFrame: the nibble bytes, what RPACK and RUNPK answer, and the statements of R166 and R167.
section
/-! The two RawFrame commands of 45_rawframe. First the nibble bytes in the arithmetic of the claims (R165, R169), and
the Frame bytes that pairs of them stand for (R167). Then one lemma per marker fault of RUNPK, and one for the content
between the markers; a branch that faults is `raise` of its cause in every state (`unlessPending_raise`). -/

namespace Sys2Proof.Machine

/-! ### Nibble bytes (R165, R169) -/

theorem high_nibble_eq_div (v : Byte) : (v.extractLsb' 4 4).setWidth 8 = v / 16#8 := by
  have hquot : v.toNat / 16 < 16 := Nat.div_lt_of_lt_mul v.isLt
  apply BitVec.eq_of_toNat_eq
  simpa [Nat.shiftRight_eq_div_pow, Nat.mod_eq_of_lt hquot] using hquot.trans (by decide)

theorem low_nibble_eq_mod (v : Byte) : (v.extractLsb' 0 4).setWidth 8 = v % 16#8 := by
  have hrem : v.toNat % 16 < 16 := Nat.mod_lt _ (by decide)
  apply BitVec.eq_of_toNat_eq
  simpa using hrem.trans (by decide)

theorem nibblePair_eq_div_mod (v : Byte) : nibblePair v = [0x47#8 + v / 16#8, 0x47#8 + v % 16#8] := by
  rw [← high_nibble_eq_div, ← low_nibble_eq_mod]
  rfl

theorem isNibbleByte_iff {v : Byte} : isNibbleByte v = true ↔ 0x47 ≤ v.toNat ∧ v.toNat ≤ 0x56 := by
  simp [isNibbleByte, Config.nibbleBase, Config.nibbleTop, BitVec.le_def]

theorem all_isNibbleByte_iff {m : List Byte} :
    m.all isNibbleByte = true ↔ ∀ v ∈ m, 0x47 ≤ v.toNat ∧ v.toNat ≤ 0x56 := by
  simp only [List.all_eq_true, isNibbleByte_iff]

/-- Frame byte `k` comes from pair `k`, the high nibble first: each pair joined moves the later ones down by two. -/
theorem getElem?_joinNibbles {m : List Byte} {k : Nat} {hi lo : Byte} (hhi : m[2 * k]? = some hi)
    (hlo : m[2 * k + 1]? = some lo) :
    (joinNibbles m)[k]? = some (((hi - 0x47) <<< 4) ||| (lo - 0x47)) := by
  induction m using joinNibbles.induct generalizing k with
  | case1 a b rest ih =>
    cases k with
    | zero =>
      obtain rfl : a = hi := Option.some.inj hhi
      obtain rfl : b = lo := Option.some.inj hlo
      rfl
    | succ k => exact ih hhi hlo
  | case2 m hshort =>
    match m, hshort with
    | [], _ | [_], _ => simp at hlo
    | a :: b :: rest, hshort => exact absurd rfl (hshort a b rest)

section RawFrame
variable {s : State}

/-! ### RPACK (R166) -/

theorem refusedWhilePending_rpack : RefusedWhilePending .rpack :=
  fun _ hpending => unlessPending_of_pending _ hpending

theorem exec_rpack (hclear : s.ekind = 0#3) :
    exec .rpack s = .next ({ s with raw := rawFrame s.frm }.completed 0) :=
  unlessPending_of_clear _ hclear

/-! ### RUNPK (R167) -/

theorem refusedWhilePending_runpk : RefusedWhilePending .runpk :=
  fun _ hpending => unlessPending_of_pending _ hpending

theorem exec_runpk_badStartMarker (hstart : s.raw.head? ≠ some Config.startMarker) :
    exec .runpk s = raise .badStartMarker s := by
  simp [exec, execRunpk, hstart, unlessPending_raise]

theorem exec_runpk_badEndMarker (hstart : s.raw.head? = some Config.startMarker)
    (hend : s.raw.getLast? ≠ some Config.endMarker) : exec .runpk s = raise .badEndMarker s := by
  simp [exec, execRunpk, hstart, hend, unlessPending_raise]

/-- Past the marker checks, RUNPK in the bytes between the markers. -/
theorem exec_runpk_of_bytes {m : List Byte} (hraw : s.raw = [Config.startMarker] ++ m ++ [Config.endMarker]) :
    exec .runpk s = unlessPending s (
      if m.length % 2 ≠ 0 then raise .oddNibbleCount s
      else if !m.all isNibbleByte then raise .badNibble s
      else .next ({ s with frm := joinNibbles m }.completed 0)) := by
  have hstart : s.raw.head? = some Config.startMarker := by rw [hraw]; rfl
  have hend : s.raw.getLast? = some Config.endMarker := by
    rw [hraw]
    exact List.getLast?_concat
  have hlen : s.raw.length - 2 = m.length := by simp [hraw]
  have hbetween : betweenMarkers s.raw = m := hraw ▸ betweenMarkers_of ..
  simp [exec, execRunpk, hstart, hend, hlen, hbetween, done_eq_completed]

end RawFrame

/-! ### The statements -/

/-- Settles O58: opcode `0x52` is of format Z, and the nibbles of a byte are its quotient and remainder by 16. -/
theorem rpackRule : Obligations.RpackRule := by
  refine ⟨rfl, refusedWhilePending_rpack, faultsReservedImmediate_of_opcodesZ (by decide), fun s hclear => ?_⟩
  rw [exec_rpack hclear, rawFrame, funext nibblePair_eq_div_mod]
  rfl

/-- Settles O59: past the marker checks the clauses are the branches of `exec_runpk_of_bytes`, in their order. -/
theorem runpkRule : Obligations.RunpkRule := by
  refine ⟨rfl, refusedWhilePending_runpk, faultsReservedImmediate_of_opcodesZ (by decide), fun s hclear =>
    ⟨fun hstart => (exec_runpk_badStartMarker hstart).trans (raise_of_clear .badStartMarker hclear),
      fun hstart hend => (exec_runpk_badEndMarker hstart hend).trans (raise_of_clear .badEndMarker hclear),
      fun m hraw => ?_⟩⟩
  rw [exec_runpk_of_bytes hraw, unlessPending_of_clear _ hclear]
  refine ⟨fun hodd => ?oddCount, fun heven hbad => ?badNibble, fun heven hlegal => ?accepted⟩
  case oddCount =>
    rw [if_pos (by omega)]
    exact raise_of_clear .oddNibbleCount hclear
  case badNibble =>
    have notAll : ¬ m.all isNibbleByte = true := by
      obtain ⟨v, hv, hrange⟩ := hbad
      intro hall
      have hinRange := all_isNibbleByte_iff.1 hall v hv
      omega
    rw [if_neg (not_not.2 heven), if_pos (by simpa using notAll)]
    exact raise_of_clear .badNibble hclear
  case accepted =>
    have hall : m.all isNibbleByte = true := all_isNibbleByte_iff.2 hlegal
    rw [if_neg (not_not.2 heven), if_neg (by simp [hall])]
    exact ⟨joinNibbles m, rfl, joinNibbles_length m, fun _ _ _ => getElem?_joinNibbles⟩

end Sys2Proof.Machine
end

-- The error state: all that a command can answer, with and without an error pending, and the statements of R182, R184,
-- R185.
section
/-! All that a command can answer (60_exceptions). `CompletesOrRaises` holds of every command in every state, and with
no error pending it is the precision of faults (R182). `ReadsOrRaises` is the stronger claim that what completes leaves
the block alone; with an error pending it holds of every command but CLRERR and SRST (R184, R185). -/

namespace Sys2Proof.Machine

/-! ### The word of a command (R63), from what the decoder checked -/

section DecodedWord
variable {cw : Half} {opc : Byte} {j : Instr}

theorem commandWord_fields (cw : Half) : commandWord (opcOf cw) (immOf cw) = cw := half_eq_bytes cw

/-- A byte within the one modifier bit of format M is that modifier. -/
theorem modifier1_of_legal {imm : Byte} (h : imm >>> 1 = 0#8) : modifier1 (imm.getLsbD 0) = imm := by
  revert imm; decide

/-- A byte within the two modifier bits of format M is those modifiers. -/
theorem modifier2_of_legal {imm : Byte} (h : imm >>> 2 = 0#8) :
    modifier2 (imm.getLsbD 0) (imm.getLsbD 1) = imm := by
  revert imm; decide

theorem encode_of_formatZ {i : Instr} (henc : encode i = commandWord opc 0#8) (hopc : opcOf cw = opc)
    (h : formatZ (immOf cw) i = .ok j) : encode j = cw := by
  unfold formatZ at h
  split at h <;> cases h
  rename_i hzero
  rw [henc, ← hopc, ← hzero, commandWord_fields]

theorem encode_of_formatM1 {f : Bool → Instr} (henc : ∀ m, encode (f m) = commandWord opc (modifier1 m))
    (hopc : opcOf cw = opc) (h : formatM1 (immOf cw) f = .ok j) : encode j = cw := by
  unfold formatM1 at h
  split at h <;> cases h
  rename_i hlegal
  rw [henc, modifier1_of_legal hlegal, ← hopc, commandWord_fields]

theorem encode_of_formatM2 {f : Bool → Bool → Instr}
    (henc : ∀ t x, encode (f t x) = commandWord opc (modifier2 t x)) (hopc : opcOf cw = opc)
    (h : formatM2 (immOf cw) f = .ok j) : encode j = cw := by
  unfold formatM2 at h
  split at h <;> cases h
  rename_i hlegal
  rw [henc, modifier2_of_legal hlegal, ← hopc, commandWord_fields]

/-- Formats R, B and D: the whole of `imm` is the operand. -/
theorem encode_of_operand {f : Byte → Instr} (henc : ∀ imm, encode (f imm) = commandWord opc imm)
    (hopc : opcOf cw = opc) (h : (.ok (f (immOf cw)) : Except DecodeError Instr) = .ok j) : encode j = cw := by
  cases h
  rw [henc, ← hopc, commandWord_fields]

/-- A command has one word: what the decoder read is what the encoder writes. -/
theorem encode_of_decode (h : decode cw = .ok j) : encode j = cw := by
  unfold decode at h
  split at h
  case h_1 row | h_2 row | h_3 row | h_10 row | h_12 row | h_13 row | h_19 row | h_20 row | h_24 row | h_25 row
      | h_27 row | h_28 row | h_29 row => exact encode_of_formatZ rfl row h
  case h_4 row | h_5 row | h_6 row | h_7 row | h_8 row | h_9 row | h_11 row | h_14 row | h_15 row =>
    exact encode_of_operand (fun _ => rfl) row h
  case h_16 row | h_17 row | h_21 row | h_22 row | h_26 row => exact encode_of_formatM1 (fun _ => rfl) row h
  case h_18 row | h_23 row => exact encode_of_formatM2 (fun _ _ => rfl) row h
  case h_30 => cases h

end DecodedWord

theorem decode_rdr (imm : Byte) : decode (0x03#8 ++ imm) = .ok (.rdr imm) := by
  simp [decode]

theorem decode_brd (imm : Byte) : decode (0x07#8 ++ imm) = .ok (.brd imm) := by
  simp [decode]

theorem decode_blen (imm : Byte) : decode (0x08#8 ++ imm) = .ok (.blen imm) := by
  simp [decode]

/-- A word that is a command is performed with the word and the write data on the port. -/
theorem step_of_decode {cw : Half} {i : Instr} (h : decode cw = .ok i) (s : State) (wdata : Word) :
    step (s.present cw wdata) = exec i (s.onPort cw wdata) :=
  performCommand_of_ok (s := s.onPort cw wdata) h

/-! ### A command completes, or raises a fault of the state it found -/

/-- The command answered `ok = 1`, or all it did is `raise` a cause in the state `s` before any write. -/
def CompletesOrRaises (s : State) (r : Result) : Prop :=
  (∃ u v, r = .next (State.completed u v)) ∨ ∃ c, r = raise c s

/-- The same, where what completed changed the answer alone. -/
def ReadsOrRaises (s : State) (r : Result) : Prop :=
  (∃ v, r = .next (s.completed v)) ∨ ∃ c, r = raise c s

section Answers
variable {s t : State} {r r' : Result}

theorem CompletesOrRaises.done (u : State) : CompletesOrRaises s (.next u.done) := .inl ⟨u, 0, rfl⟩

theorem CompletesOrRaises.raise (c : Cause) : CompletesOrRaises s (raise c s) := .inr ⟨c, rfl⟩

theorem CompletesOrRaises.ite {p : Prop} [Decidable p] (hthen : CompletesOrRaises s r)
    (helse : CompletesOrRaises s r') : CompletesOrRaises s (if p then r else r') := by
  split
  · exact hthen
  · exact helse

/-- The refusal while an error is pending is what any cause raises there (R184). -/
theorem refused_eq_raise (hpending : s.ekind ≠ 0#3) (c : Cause) : (.next s.refused : Result) = raise c s :=
  (raise_of_pending c hpending).symm

theorem CompletesOrRaises.unlessPending (h : CompletesOrRaises s r) : CompletesOrRaises s (unlessPending s r) := by
  by_cases hclear : s.ekind = 0#3
  · rwa [unlessPending_of_clear r hclear]
  · rw [unlessPending_of_pending r hclear]
    exact .inr ⟨.reservedOpcode, refused_eq_raise hclear _⟩

theorem ReadsOrRaises.completed (v : Word) : ReadsOrRaises s (.next (s.completed v)) := .inl ⟨v, rfl⟩

theorem ReadsOrRaises.raise (c : Cause) : ReadsOrRaises s (raise c s) := .inr ⟨c, rfl⟩

theorem ReadsOrRaises.unlessPending (hpending : s.ekind ≠ 0#3) : ReadsOrRaises s (unlessPending s r) := by
  rw [unlessPending_of_pending r hpending]
  exact .inr ⟨.reservedOpcode, refused_eq_raise hpending _⟩

theorem ReadsOrRaises.completesOrRaises (h : ReadsOrRaises s r) : CompletesOrRaises s r :=
  h.imp_left fun ⟨v, hv⟩ => ⟨s, v, hv⟩

/-- With an error pending neither a read nor a fault touches the block (R184). -/
theorem ReadsOrRaises.toBlock_eq (h : ReadsOrRaises s r) (hpending : s.ekind ≠ 0#3) (hr : r = .next t) :
    t.toBlock = s.toBlock := by
  rcases h with ⟨v, hv⟩ | ⟨c, hc⟩
  · cases hv.symm.trans hr
    rfl
  · rw [raise_of_pending c hpending] at hc
    cases hc.symm.trans hr
    rfl

/-- An answer `ok = 0` with no error pending is a recorded fault (R182). -/
theorem CompletesOrRaises.failed (h : CompletesOrRaises s r) (hclear : s.ekind = 0#3) (hr : r = .next t)
    {rdata : Word} (hok : t.rsp = some ⟨false, rdata⟩) : ∃ c : Cause, t = s.failed c.kind.code c.code := by
  rcases h with ⟨u, v, hv⟩ | ⟨c, hc⟩
  · cases hv.symm.trans hr
    cases hok
  · rw [raise_of_clear c hclear] at hc
    cases hc.symm.trans hr
    exact ⟨c, rfl⟩

end Answers

/-! ### The commands that only read (R83, R87, R88) -/

theorem exec_rdr_readsOrRaises (r : Byte) (s : State) : ReadsOrRaises s (exec (.rdr r) s) := by
  simp only [exec, execRdr]
  split
  · exact .raise _
  · exact .completed _

theorem exec_brd_readsOrRaises (b : Byte) (s : State) : ReadsOrRaises s (exec (.brd b) s) := by
  simp only [exec, execBrd]
  split
  · exact .raise _
  · split
    · exact .raise _
    · exact .completed _

theorem exec_blen_readsOrRaises (b : Byte) (s : State) : ReadsOrRaises s (exec (.blen b) s) := by
  simp only [exec, execBlen]
  split
  · exact .raise _
  · exact .completed _

/-! ### The commands with a case on an operand, a character or a payload -/

theorem execWrr_completesOrRaises (r : Byte) (s : State) : CompletesOrRaises s (execWrr r s) := by
  refine .unlessPending ?_
  cases regOf? r with
  | none => exact .raise _
  | some reg => exact .ite (.raise _) (.ite (.raise _) (.done _))

theorem execBpush_completesOrRaises (b : Byte) (s : State) : CompletesOrRaises s (execBpush b s) := by
  refine .unlessPending ?_
  cases bufOf? b with
  | none => exact .raise _
  | some x => exact .ite (.raise _) (.ite (.raise _) (.done _))

theorem execHchr_completesOrRaises (c : Byte) (s : State) : CompletesOrRaises s (execHchr c s) := by
  refine .unlessPending (.ite (.done _) (.ite (.done _) (.ite ?dot ?symbol)))
  case dot => exact .ite (.raise _) (.ite (.raise _) (.done _))
  case symbol =>
    cases nameCode c with
    | none => exact .raise _
    | some k => exact .ite (.raise _) (.done _)

theorem execUpi16_completesOrRaises (signed : Bool) (s : State) : CompletesOrRaises s (execUpi16 signed s) := by
  refine .unlessPending ?_
  split
  · exact .done _
  · exact .done _
  · exact .raise _

theorem execUpchr_completesOrRaises (signed : Bool) (s : State) : CompletesOrRaises s (execUpchr signed s) := by
  refine .unlessPending ?_
  split
  · exact .done _
  · exact .raise _

theorem execUpf24_completesOrRaises (s : State) : CompletesOrRaises s (execUpf24 s) := by
  refine .unlessPending ?_
  split
  · exact .done _
  · exact .raise _

/-! ### Every command -/

/-- Every check of a command comes before its first write (R182): each branch of a rule that faults is `raise` in the
state the command found. -/
theorem exec_completesOrRaises (i : Instr) (s : State) : CompletesOrRaises s (exec i s) := by
  cases i with
  | nop | clrerr | srst => exact .done _
  | rdr r => exact (exec_rdr_readsOrRaises r s).completesOrRaises
  | brd b => exact (exec_brd_readsOrRaises b s).completesOrRaises
  | blen b => exact (exec_blen_readsOrRaises b s).completesOrRaises
  | wrr r => exact execWrr_completesOrRaises r s
  | bclr b | cbuf b =>
    refine .unlessPending ?_
    cases bufOf? b with
    | none => exact .raise _
    | some x => exact .done _
  | bpush b => exact execBpush_completesOrRaises b s
  | hchr c => exact execHchr_completesOrRaises c s
  | hclr | hmix | cclr | cbyte _ | pkf32 _ _ | pkf24 | pkstr | upstr | rpack => exact .unlessPending (.done _)
  | pki16 _ | pkchr _ => exact .unlessPending (.ite (.done _) (.raise _))
  | upi16 signed => exact execUpi16_completesOrRaises signed s
  | upchr signed => exact execUpchr_completesOrRaises signed s
  | upf32 _ _ => exact .unlessPending (.ite (.raise _) (.done _))
  | upf24 => exact execUpf24_completesOrRaises s
  | fpack _ => exact .unlessPending (.ite (.raise _) (.ite (.raise _) (.done _)))
  | funpk => exact .unlessPending (.ite (.raise _) (.ite (.raise _) (.ite (.raise _) (.done _))))
  | runpk =>
    exact .unlessPending (.ite (.raise _) (.ite (.raise _) (.ite (.raise _) (.ite (.raise _) (.done _)))))

theorem performCommand_completesOrRaises (s : State) : CompletesOrRaises s (performCommand s) := by
  cases hd : decode s.cw with
  | ok i =>
    rw [performCommand_of_ok hd]
    exact exec_completesOrRaises i s
  | error e =>
    obtain ⟨c, -, hc⟩ := illegalCommand_eq_raise e s
    rw [performCommand_of_error hd, hc]
    exact .raise c

/-! ### While an error is pending (R184, R185) -/

/-- Every command whose opcode is not one of the six is refused. -/
theorem refusedWhilePending_of_opcode {i : Instr} (h : opcOf (encode i) ∉ acceptedOpcodes) :
    RefusedWhilePending i := by
  cases i with
  | nop | clrerr | srst => exact absurd (by decide) h
  | rdr _ | brd _ | blen _ => exact absurd (by simp [encode, commandWord, opcOf, hi_append, acceptedOpcodes]) h
  | _ => exact fun _ hpending => unlessPending_of_pending _ hpending

/-- A word with another opcode is refused, legal or not. -/
theorem performCommand_refused {s : State} (hpending : s.ekind ≠ 0#3) (hopc : opcOf s.cw ∉ acceptedOpcodes) :
    performCommand s = .next s.refused := by
  cases hd : decode s.cw with
  | ok i =>
    rw [performCommand_of_ok hd]
    exact refusedWhilePending_of_opcode (by rwa [encode_of_decode hd]) s hpending
  | error e =>
    obtain ⟨c, -, hc⟩ := illegalCommand_eq_raise e s
    rw [performCommand_of_error hd, hc, raise_of_pending c hpending]

/-- CLRERR and SRST are the only commands that write the block while an error is pending. -/
theorem exec_readsOrRaises_of_pending {i : Instr} {s : State} (hpending : s.ekind ≠ 0#3) (hclrerr : i ≠ .clrerr)
    (hsrst : i ≠ .srst) : ReadsOrRaises s (exec i s) := by
  cases i with
  | nop => exact .completed 0
  | clrerr => exact absurd rfl hclrerr
  | srst => exact absurd rfl hsrst
  | rdr r => exact exec_rdr_readsOrRaises r s
  | brd b => exact exec_brd_readsOrRaises b s
  | blen b => exact exec_blen_readsOrRaises b s
  | _ => exact .unlessPending hpending

/-- All that a command word can do to the block while an error is pending. -/
theorem performCommand_toBlock_of_pending {s t : State} (hpending : s.ekind ≠ 0#3)
    (h : performCommand s = .next t) :
    t.toBlock = s.toBlock ∨ (s.cw = 0x0100 ∧ t.toBlock = s.clearError.toBlock) ∨
      (s.cw = 0x0200 ∧ t.toBlock = Block.reset) := by
  cases hd : decode s.cw with
  | error e =>
    obtain ⟨c, -, hc⟩ := illegalCommand_eq_raise e s
    rw [performCommand_of_error hd, hc] at h
    exact .inl ((ReadsOrRaises.raise c).toBlock_eq hpending h)
  | ok i =>
    rw [performCommand_of_ok hd] at h
    by_cases hclrerr : i = .clrerr
    · subst hclrerr
      cases h
      exact .inr (.inl ⟨(encode_of_decode hd).symm, rfl⟩)
    by_cases hsrst : i = .srst
    · subst hsrst
      cases h
      exact .inr (.inr ⟨(encode_of_decode hd).symm, rfl⟩)
    exact .inl ((exec_readsOrRaises_of_pending hpending hclrerr hsrst).toBlock_eq hpending h)

/-! ### The ways out of the error state (R185), in every state -/

theorem step_clrerr (s : State) (wdata : Word) : step (s.present 0x0100 wdata) =
    .next ({ s.onPort 0x0100 wdata with ekind := 0, ecause := 0, ecmd := 0 }.completed 0) :=
  step_of_decode (i := .clrerr) rfl s wdata

theorem step_srst (s : State) (wdata : Word) : step (s.present 0x0200 wdata) =
    .next ({ s.onPort 0x0200 wdata with toBlock := Block.reset }.completed 0) :=
  step_of_decode (i := .srst) rfl s wdata

/-! ### The statements -/

/-- Settles O6: the refused words by their opcode, the six commands by their own rules, and a reserved `imm` or an index
past the length as a fault that is not taken. -/
theorem errorPendingAcceptsSixCommands : Obligations.ErrorPendingAcceptsSixCommands := by
  intro s wdata hpending
  exact ⟨fun cw hopc => performCommand_refused (s := s.onPort cw wdata) hpending hopc,
    step_of_decode (i := .nop) rfl s wdata, step_clrerr s wdata, step_srst s wdata,
    fun r _ hview => (step_of_decode (decode_rdr r) s wdata).trans (exec_rdr hview),
    fun b _ _ hview hv => (step_of_decode (decode_brd b) s wdata).trans (exec_brd_inside hview hv),
    fun b _ hview => (step_of_decode (decode_blen b) s wdata).trans (exec_blen hview),
    fun _ _ hill => step_illegalImmediate_of_pending wdata hpending hill,
    fun b _ hview hpast => calc
      _ = exec (.brd b) _ := step_of_decode (decode_brd b) s wdata
      _ = raise .bufferIndex _ := exec_brd_past hview hpast
      _ = _ := raise_of_pending .bufferIndex hpending⟩

/-- Settles O7: the case split is over the host's oldest event, and a command word has the three outcomes of
`performCommand_toBlock_of_pending`. -/
theorem onlyClrerrAndResetLeaveTheErrorState : Obligations.OnlyClrerrAndResetLeaveTheErrorState := by
  refine ⟨fun s t hpending h => ?_, fun s wdata => ⟨step_clrerr s wdata, step_srst s wdata⟩⟩
  unfold step takeEvent at h
  split at h
  case h_1 =>
    cases h
    exact .inl rfl
  case h_2 rest hinbox =>
    cases h
    exact .inr (.inr ⟨.inr ⟨rest, hinbox⟩, rfl⟩)
  case h_3 cw wdata rest hinbox =>
    rcases performCommand_toBlock_of_pending (s := s.accept cw wdata rest) hpending h with
      hsame | ⟨hcw, hblock⟩ | ⟨hcw, hblock⟩
    · exact .inl hsame
    · exact .inr (.inl ⟨⟨wdata, rest, hcw ▸ hinbox⟩, hblock⟩)
    · exact .inr (.inr ⟨.inl ⟨wdata, rest, hcw ▸ hinbox⟩, hblock⟩)

/-- Settles O8: a word that does not complete raised its cause in the state with the word on the port, and no cause has
kind 0. -/
theorem faultsArePrecise : Obligations.FaultsArePrecise := by
  intro s t cw wdata hclear hstep ⟨rdata, hrsp⟩
  rw [step_present] at hstep
  obtain ⟨c, ht⟩ := (performCommand_completesOrRaises (s.onPort cw wdata)).failed hclear hstep hrsp
  exact ⟨c.kind.code, c.code, cause_kind_code_ne c, ht⟩

end Sys2Proof.Machine
end

-- The two resets of the block: the reset input and SRST (70_reset_and_hazards).
section
/-! The two events of R210. Each takes effect by an equation on the whole next state that has no hypothesis on the error
record: `step_of_reset` for the reset input and `step_srst` for the command. The statement reads the block off both. -/

namespace Sys2Proof.Machine

theorem step_of_reset {s : State} {rest : List HostEvent} (h : s.inbox = .reset :: rest) :
    step s = .next (resetInput rest) := by
  simp only [step, takeEvent, h]

/-- An answer is on the port only (R60). -/
@[simp] theorem completed_toBlock (s : State) (rdata : Word) : (s.completed rdata).toBlock = s.toBlock := rfl

/-- Settles O2: the next state of either event holds `Block.reset`, and answering SRST leaves it there. -/
theorem resetInputAndSrstHaveTheSameEffect : Obligations.ResetInputAndSrstHaveTheSameEffect := by
  refine ⟨fun s rest hinbox => ?resetInput, fun s wdata => ?srst⟩
  case resetInput => exact ⟨resetInput rest, step_of_reset hinbox, resetInput_toBlock rest⟩
  case srst => exact ⟨_, step_srst s wdata, completed_toBlock _ 0⟩

end Sys2Proof.Machine
end

-- The encoding, both ways: the statements of R63 and the words of the spec's examples.
section
/-! Decoder and encoder against each other. That a word has one command is `encode_of_decode`, which the statements of
the error state already use; here the other direction, that no operand bit is dropped. -/

namespace Sys2Proof.Machine

/-- The whole of `imm` is the operand, or the modifiers are, or there is none (R62). -/
theorem decode_encode (i : Instr) : decode (encode i) = .ok i := by
  cases i with
  | rdr _ | wrr _ | bclr _ | bpush _ | brd _ | blen _ | hchr _ | cbyte _ | cbuf _ =>
    simp [encode, commandWord, decode]
  | pki16 m | pkchr m | upi16 m | upchr m | fpack m => cases m <;> rfl
  | pkf32 t x | upf32 t x => cases t <;> cases x <;> rfl
  | _ => rfl

/-- Settles O18: the case split is over the format of the command. -/
theorem decodeOfEncodeIsTheCommand : Obligations.DecodeOfEncodeIsTheCommand := decode_encode

/-- Settles O19: what the decoder checked of `imm` is what the encoder writes there. -/
theorem encodeOfDecodeIsTheWord : Obligations.EncodeOfDecodeIsTheWord := fun _ _ => encode_of_decode

/-- Settles O20: each word is the encoding of the command named, so decoding gives the command back. -/
theorem wordsOfTheSpecDecode : Obligations.WordsOfTheSpecDecode :=
  ⟨decode_encode (.wrr 0x03), decode_encode (.brd 0x02), decode_encode (.hchr 0x53), decode_encode (.cbuf 0x01),
    decode_encode (.pkchr true), decode_encode (.pkf32 false true), decode_encode (.upf32 true false),
    decode_encode (.fpack true), decode_encode .runpk⟩

end Sys2Proof.Machine
end

-- What each command does when it completes, and the words that raise each cause: all that a command can answer.
section
/-! All that a command can answer, with what it wrote. `CompletesOrRaises` says that a command completes or raises some
cause; the invariants and the frame statements need to know in which state it completes and which word raises which
cause. `Completes` is the first, one constructor per way to complete (40_host_access to 45_rawframe), each with the
checks that were passed; `Cause.RaisedBy` is the second (R181). `exec_answers` ties both to `exec`, once for all
commands, and `Completes.exec_eq` is the converse for the ways to complete. -/

namespace Sys2Proof.Machine

/-! ### The numbers of registers and buffers (R21, R40) -/

/-- The number of a register: `regOf?` read from right to left. -/
def Reg.number (reg : Reg) : Byte :=
  match reg with
  | .status => 0x00
  | .ecmd => 0x01
  | .cfg => 0x02
  | .addr => 0x03
  | .hash => 0x04
  | .crc => 0x05
  | .val => 0x06
  | .vtime => 0x07
  | .vidx => 0x08
  | .rxaddr => 0x09
  | .rxflags => 0x0A
  | .rxhash => 0x0B
  | .rxcrc => 0x0C
  | .hslot => 0x0D
  | .hscan => 0x0E

theorem regOf?_eq_some {r : Byte} {reg : Reg} : regOf? r = some reg ↔ r = reg.number := by
  constructor
  · intro h
    unfold regOf? at h
    split at h <;> cases h <;> rfl
  · rintro rfl
    cases reg <;> rfl

@[simp] theorem regOf?_number (reg : Reg) : regOf? reg.number = some reg := regOf?_eq_some.2 rfl

/-- The identifier of a buffer: `bufOf?` read from right to left. -/
def Buf.number (x : Buf) : Byte :=
  match x with
  | .pay => 0x00
  | .frm => 0x01
  | .raw => 0x02
  | .str => 0x03

theorem bufOf?_eq_some {b : Byte} {x : Buf} : bufOf? b = some x ↔ b = x.number := by
  constructor
  · intro h
    unfold bufOf? at h
    split at h <;> cases h <;> rfl
  · rintro rfl
    cases x <;> rfl

@[simp] theorem bufOf?_number (x : Buf) : bufOf? x.number = some x := bufOf?_eq_some.2 rfl

/-! ### The words that raise a cause (R181) -/

/-- The value of `STATUS` while the cause is recorded (R14). -/
def Cause.status (c : Cause) : Half := 0#5 ++ c.kind.code ++ c.code

/-- The table of causes lists the word under the cause. -/
def Cause.RaisedBy (c : Cause) (cw : Half) : Prop := raisedBy c.status cw = true

theorem reservedOpcode_raisedBy {cw : Half} (h : reservedOpcode (opcOf cw) = true) :
    Cause.reservedOpcode.RaisedBy cw := h

theorem reservedImmediate_raisedBy {cw : Half} (h : illegalImmediate cw = true) :
    Cause.reservedImmediate.RaisedBy cw := h

/-- A register number past `0x0E`, under either opcode of format R. -/
theorem illegalImmediate_of_regOf? {opc r : Byte} (hopc : opc ∈ opcodesR) (h : regOf? r = none) :
    illegalImmediate (opc ++ r) = true :=
  illegalImmediate_iff.2 (.inr (.inl ⟨by simpa using hopc, by simpa using regOf?_eq_none.1 h⟩))

/-- A buffer identifier past 3, under any opcode of format B. -/
theorem illegalImmediate_of_bufOf? {opc b : Byte} (hopc : opc ∈ opcodesB) (h : bufOf? b = none) :
    illegalImmediate (opc ++ b) = true :=
  illegalImmediate_iff.2 (.inr (.inr (.inl ⟨by simpa using hopc, by simpa using bufOf?_eq_none.1 h⟩)))

/-! ### What a command does when it completes -/

/-- The ways to complete: the command, the checks it passed, and the state after. A command that is refused while an
error is pending (R184) completes only with none pending. -/
inductive Completes (s : State) : Instr → State → Prop
  | nop : Completes s .nop (s.completed 0)
  | clrerr : Completes s .clrerr (s.clearError.completed 0)
  | srst : Completes s .srst (s.softReset.completed 0)
  | rdr (reg : Reg) : Completes s (.rdr reg.number) (s.completed (s.readReg reg))
  | wrr {reg : Reg} (hclear : s.ekind = 0#3) (hw : reg.writable = true)
      (hfits : fitsUnsigned reg.width s.wdata = true) :
      Completes s (.wrr reg.number) ((s.writeReg reg s.wdata).completed 0)
  | bclr (x : Buf) (hclear : s.ekind = 0#3) : Completes s (.bclr x.number) ((s.bufClr x).completed 0)
  | bpush {x : Buf} (hclear : s.ekind = 0#3) (hfits : fitsUnsigned 8 s.wdata = true) (hroom : s.bufFull x = false) :
      Completes s (.bpush x.number) ((s.bufPush x (s.wdata.setWidth 8)).completed 0)
  | brd {x : Buf} {v : Byte} (hv : s.bufRead x s.wdata.toNat = some v) :
      Completes s (.brd x.number) (s.completed (v.setWidth 32))
  | blen (x : Buf) : Completes s (.blen x.number) (s.completed (BitVec.ofNat 32 (s.buf x).length))
  | hclr (hclear : s.ekind = 0#3) :
      Completes s .hclr ({ s with slots := Slots.filled, sidx := 0, sdone := false }.completed 0)
  | hchrAfterSpace (c : Byte) (hclear : s.ekind = 0#3) (hdone : s.sdone = true) :
      Completes s (.hchr c) (s.completed 0)
  | hchrSpace (hclear : s.ekind = 0#3) (hopen : s.sdone = false) :
      Completes s (.hchr Config.charSpace) ({ s with sdone := true }.completed 0)
  | hchrDot (hclear : s.ekind = 0#3) (hopen : s.sdone = false) (hsome : s.sidx ≠ 0#3)
      (hunmarked : (s.slots.get (s.sidx.toNat - 1)).getLsbD 0 = false) :
      Completes s (.hchr Config.charDot)
        ({ s with slots := s.slots.set (s.sidx.toNat - 1) (s.slots.get (s.sidx.toNat - 1) + 1#7) }.completed 0)
  | hchrSymbol {c : Byte} {k : BitVec 7} (hclear : s.ekind = 0#3) (hopen : s.sdone = false)
      (hcode : nameCode c = some k) (hroom : s.sidx ≠ 4#3) :
      Completes s (.hchr c) ({ s with slots := s.slots.set s.sidx.toNat k, sidx := s.sidx + 1#3 }.completed 0)
  | hmix (hclear : s.ekind = 0#3) : Completes s .hmix ({ s with hash := mix s.slots }.completed 0)
  | cclr (hclear : s.ekind = 0#3) : Completes s .cclr ({ s with crc := Config.crcInit }.completed 0)
  | cbyte (v : Byte) (hclear : s.ekind = 0#3) :
      Completes s (.cbyte v) ({ s with crc := crcStep s.crc v }.completed 0)
  | cbuf (x : Buf) (hclear : s.ekind = 0#3) :
      Completes s (.cbuf x.number) ({ s with crc := crc16 (s.buf x) }.completed 0)
  | pki16 {signed : Bool} (hclear : s.ekind = 0#3) (hfits : fitsInteger signed 16 s.val = true) :
      Completes s (.pki16 signed) ({ s with pay := halfBytes (s.val.extractLsb' 0 16) }.completed 0)
  | pkchr {signed : Bool} (hclear : s.ekind = 0#3) (hfits : fitsInteger signed 8 s.val = true) :
      Completes s (.pkchr signed) ({ s with pay := [s.val.extractLsb' 0 8] }.completed 0)
  | pkf32 (time index : Bool) (hclear : s.ekind = 0#3) :
      Completes s (.pkf32 time index)
        ({ s with pay := float32Payload time index s.val s.vtime s.vidx }.completed 0)
  | pkf24 (hclear : s.ekind = 0#3) : Completes s .pkf24 ({ s with pay := (wordBytes s.val).take 3 }.completed 0)
  | pkstr (hclear : s.ekind = 0#3) : Completes s .pkstr ({ s with pay := s.str.reverse }.completed 0)
  | upi16One (signed : Bool) {lo : Byte} (hclear : s.ekind = 0#3) (hpay : s.pay = [lo]) :
      Completes s (.upi16 signed) ({ s with val := extendInteger signed (0#8 ++ lo) }.completed 0)
  | upi16Two (signed : Bool) {hi lo : Byte} (hclear : s.ekind = 0#3) (hpay : s.pay = [hi, lo]) :
      Completes s (.upi16 signed) ({ s with val := extendInteger signed (hi ++ lo) }.completed 0)
  | upchr (signed : Bool) {b : Byte} (hclear : s.ekind = 0#3) (hpay : s.pay = [b]) :
      Completes s (.upchr signed) ({ s with val := extendInteger signed b }.completed 0)
  | upf32 {time index : Bool} (hclear : s.ekind = 0#3) (hlen : s.pay.length = float32Length time index) :
      Completes s (.upf32 time index) ({ s with
        val := halfAt s.pay 0 ++ halfAt s.pay 2
        vtime := if time then halfAt s.pay 4 else s.vtime
        vidx := if index then halfAt s.pay (4 + 2 * time.toNat) else s.vidx }.completed 0)
  | upf24 {b2 b1 b0 : Byte} (hclear : s.ekind = 0#3) (hpay : s.pay = [b2, b1, b0]) :
      Completes s .upf24 ({ s with val := b2 ++ b1 ++ b0 ++ 0#8 }.completed 0)
  | upstr (hclear : s.ekind = 0#3) : Completes s .upstr ({ s with str := s.pay.reverse }.completed 0)
  | fpack {q : Bool} (hclear : s.ekind = 0#3) (hrequest : q = true → s.pay = [])
      (haddr : s.al11 = false → s.addr.toNat ≤ 0xFF) :
      Completes s (.fpack q) ({ s with
        frm := frameBody s.al11 s.addr s.hash q s.pay ++ halfBytes (crc16 (frameBody s.al11 s.addr s.hash q s.pay))
        crc := crc16 (frameBody s.al11 s.addr s.hash q s.pay) }.completed 0)
  | funpk (hclear : s.ekind = 0#3) (hlen : 6 ≤ s.frm.length) (hcrc : crc16 (covered s.frm) = crcField s.frm)
      (hsize : frameSize s.frm = s.frm.length - 6) :
      Completes s .funpk ({ s with
        rxaddr := frameAddress s.al11 s.frm
        rxflags := byteAt s.frm 1
        rxhash := halfAt s.frm 2
        rxcrc := crcField s.frm
        crc := crc16 (covered s.frm)
        pay := framePayload s.frm }.completed 0)
  | rpack (hclear : s.ekind = 0#3) : Completes s .rpack ({ s with raw := rawFrame s.frm }.completed 0)
  | runpk (hclear : s.ekind = 0#3) (hstart : s.raw.head? = some Config.startMarker)
      (hend : s.raw.getLast? = some Config.endMarker) (heven : (s.raw.length - 2) % 2 = 0)
      (hnibbles : (betweenMarkers s.raw).all isNibbleByte = true) :
      Completes s .runpk ({ s with frm := joinNibbles (betweenMarkers s.raw) }.completed 0)

/-! ### All that a command can answer -/

/-- A command word is answered in one of three ways: `Done` (it completed), refused while an error is pending (R184), or
failed with a cause the table gives for the word (R181, R182). -/
inductive Answers (cw : Half) (Done : State → Prop) (s : State) : Result → Prop
  | completes {t : State} (h : Done t) : Answers cw Done s (.next t)
  | refuses (hpending : s.ekind ≠ 0#3) : Answers cw Done s (.next s.refused)
  | faults {c : Cause} (hclear : s.ekind = 0#3) (hc : c.RaisedBy cw) :
      Answers cw Done s (.next (s.failed c.kind.code c.code))

section Answers
variable {s t : State} {cw : Half} {Done : State → Prop} {r r' : Result} {c : Cause}

theorem Answers.raise (hc : c.RaisedBy cw) : Answers cw Done s (raise c s) := by
  by_cases h : s.ekind = 0#3
  · rw [raise_of_clear c h]
    exact .faults h hc
  · rw [raise_of_pending c h]
    exact .refuses h

theorem Answers.unlessPending (h : s.ekind = 0#3 → Answers cw Done s r) : Answers cw Done s (unlessPending s r) := by
  by_cases hclear : s.ekind = 0#3
  · rw [unlessPending_of_clear r hclear]
    exact h hclear
  · rw [unlessPending_of_pending r hclear]
    exact .refuses hclear

theorem Answers.ite {p : Prop} [Decidable p] (hthen : p → Answers cw Done s r) (helse : ¬ p → Answers cw Done s r') :
    Answers cw Done s (if p then r else r') := by
  split
  · exact hthen ‹_›
  · exact helse ‹_›

theorem Answers.mono {Done' : State → Prop} (h : Answers cw Done s r) (hdone : ∀ t, Done t → Done' t) :
    Answers cw Done' s r := by
  cases h with
  | completes h => exact .completes (hdone _ h)
  | refuses hpending => exact .refuses hpending
  | faults hclear hc => exact .faults hclear hc

theorem Answers.exists_next (h : Answers cw Done s r) : ∃ t, r = .next t := by
  cases h <;> exact ⟨_, rfl⟩

/-- An answer `ok = 1` is that of a command that completed. -/
theorem Answers.done_of_ok (h : Answers cw Done s (.next t)) {rdata : Word} (hok : t.rsp = some ⟨true, rdata⟩) :
    Done t := by
  cases h with
  | completes h => exact h
  | refuses _ => cases hok
  | faults _ _ => cases hok

end Answers

/-! ### The rules with a case on an operand, a character or a payload -/

theorem execRdr_answers (r : Byte) (s : State) : Answers (encode (.rdr r)) (Completes s (.rdr r)) s (execRdr r s) := by
  unfold execRdr
  cases hreg : regOf? r with
  | none => exact .raise (reservedImmediate_raisedBy (illegalImmediate_of_regOf? (by decide) hreg))
  | some reg =>
    obtain rfl := regOf?_eq_some.1 hreg
    exact .completes (.rdr reg)

/-- A value too wide for a writable register: VAL takes every 32-bit value, so R181 lists the other five. -/
theorem operandRange_raisedBy_wrr {reg : Reg} {v : Word} (hw : reg.writable = true)
    (hwide : fitsUnsigned reg.width v = false) : Cause.operandRange.RaisedBy (encode (.wrr reg.number)) := by
  cases reg with
  | val => exact absurd (fitsUnsigned_iff.2 v.isLt) (Bool.eq_false_iff.1 hwide)
  | cfg | addr | hash | vtime | vidx => exact rfl
  | _ => cases hw

theorem readOnlyRegister_raisedBy {reg : Reg} (hro : reg.writable = false) :
    Cause.readOnlyRegister.RaisedBy (encode (.wrr reg.number)) := by
  cases reg <;> first | exact rfl | cases hro

theorem execWrr_answers (r : Byte) (s : State) : Answers (encode (.wrr r)) (Completes s (.wrr r)) s (execWrr r s) := by
  refine .unlessPending fun hclear => ?_
  cases hreg : regOf? r with
  | none => exact .raise (reservedImmediate_raisedBy (illegalImmediate_of_regOf? (by decide) hreg))
  | some reg =>
    obtain rfl := regOf?_eq_some.1 hreg
    refine .ite (fun hro => .raise (readOnlyRegister_raisedBy (by simpa using hro))) fun hw => ?_
    have hwritable : reg.writable = true := by simpa using hw
    exact .ite (fun hwide => .raise (operandRange_raisedBy_wrr hwritable (by simpa using hwide)))
      fun hfits => .completes (.wrr hclear hwritable (by simpa using hfits))

/-- The two causes BPUSH raises past its identifier check, for each of the four buffers. -/
theorem bpush_raisedBy (x : Buf) : Cause.operandRange.RaisedBy (encode (.bpush x.number)) ∧
    Cause.bufferOverflow.RaisedBy (encode (.bpush x.number)) := by
  cases x <;> exact ⟨rfl, rfl⟩

theorem execBpush_answers (b : Byte) (s : State) :
    Answers (encode (.bpush b)) (Completes s (.bpush b)) s (execBpush b s) := by
  refine .unlessPending fun hclear => ?_
  cases hx : bufOf? b with
  | none => exact .raise (reservedImmediate_raisedBy (illegalImmediate_of_bufOf? (by decide) hx))
  | some x =>
    obtain rfl := bufOf?_eq_some.1 hx
    obtain ⟨hrange, hoverflow⟩ := bpush_raisedBy x
    exact .ite (fun _ => .raise hrange) fun hfits => .ite (fun _ => .raise hoverflow)
      fun hroom => .completes (.bpush hclear (by simpa using hfits) (by simpa using hroom))

theorem execBclr_answers (b : Byte) (s : State) :
    Answers (encode (.bclr b)) (Completes s (.bclr b)) s (execBclr b s) := by
  refine .unlessPending fun hclear => ?_
  cases hx : bufOf? b with
  | none => exact .raise (reservedImmediate_raisedBy (illegalImmediate_of_bufOf? (by decide) hx))
  | some x =>
    obtain rfl := bufOf?_eq_some.1 hx
    exact .completes (.bclr x hclear)

theorem bufferIndex_raisedBy (x : Buf) : Cause.bufferIndex.RaisedBy (encode (.brd x.number)) := by
  cases x <;> exact rfl

theorem execBrd_answers (b : Byte) (s : State) : Answers (encode (.brd b)) (Completes s (.brd b)) s (execBrd b s) := by
  unfold execBrd
  cases hx : bufOf? b with
  | none => exact .raise (reservedImmediate_raisedBy (illegalImmediate_of_bufOf? (by decide) hx))
  | some x =>
    obtain rfl := bufOf?_eq_some.1 hx
    dsimp only
    cases hv : s.bufRead x s.wdata.toNat with
    | none => exact .raise (bufferIndex_raisedBy x)
    | some v => exact .completes (.brd hv)

theorem execBlen_answers (b : Byte) (s : State) :
    Answers (encode (.blen b)) (Completes s (.blen b)) s (execBlen b s) := by
  unfold execBlen
  cases hx : bufOf? b with
  | none => exact .raise (reservedImmediate_raisedBy (illegalImmediate_of_bufOf? (by decide) hx))
  | some x =>
    obtain rfl := bufOf?_eq_some.1 hx
    exact .completes (.blen x)

theorem execCbuf_answers (b : Byte) (s : State) :
    Answers (encode (.cbuf b)) (Completes s (.cbuf b)) s (execCbuf b s) := by
  refine .unlessPending fun hclear => ?_
  cases hx : bufOf? b with
  | none => exact .raise (reservedImmediate_raisedBy (illegalImmediate_of_bufOf? (by decide) hx))
  | some x =>
    obtain rfl := bufOf?_eq_some.1 hx
    exact .completes (.cbuf x hclear)

/-- A character without a code, neither the space nor the dot. -/
theorem nameIllegalChar_raisedBy {c : Byte} (hspace : c ≠ Config.charSpace) (hdot : c ≠ Config.charDot)
    (hcode : nameCode c = none) : Cause.nameIllegalChar.RaisedBy (encode (.hchr c)) := by
  have hs : c ≠ 0x20#8 := hspace
  have hd : c ≠ 0x2E#8 := hdot
  change (opcOf (0x11#8 ++ c) == 0x11#8 && immOf (0x11#8 ++ c) != 0x20#8 && immOf (0x11#8 ++ c) != 0x2E#8 &&
    (nameCode (immOf (0x11#8 ++ c))).isNone) = true
  simp [hs, hd, hcode]

theorem nameTooLong_raisedBy {c : Byte} {k : BitVec 7} (hcode : nameCode c = some k) :
    Cause.nameTooLong.RaisedBy (encode (.hchr c)) := by
  change (opcOf (0x11#8 ++ c) == 0x11#8 && (nameCode (immOf (0x11#8 ++ c))).isSome) = true
  simp [hcode]

theorem execHchr_answers (c : Byte) (s : State) :
    Answers (encode (.hchr c)) (Completes s (.hchr c)) s (execHchr c s) := by
  refine .unlessPending fun hclear => .ite (fun hdone => .completes (.hchrAfterSpace c hclear hdone)) fun hnot => ?_
  have hopen : s.sdone = false := by simpa using hnot
  refine .ite (fun hspace => hspace ▸ .completes (.hchrSpace hclear hopen)) fun hspace =>
    .ite (fun hdot => ?dot) fun hdot => ?symbol
  case dot =>
    subst hdot
    exact .ite (fun _ => .raise rfl) fun hsome => .ite (fun _ => .raise rfl) fun hunmarked =>
      .completes (.hchrDot hclear hopen hsome (Bool.eq_false_iff.2 hunmarked))
  case symbol =>
    cases hcode : nameCode c with
    | none => exact .raise (nameIllegalChar_raisedBy hspace hdot hcode)
    | some k =>
      exact .ite (fun _ => .raise (nameTooLong_raisedBy hcode)) fun hroom =>
        .completes (.hchrSymbol hclear hopen hcode hroom)

/-- An integer pack or unpack has two words, and R181 lists both. -/
theorem operandRange_raisedBy_pack (signed : Bool) : Cause.operandRange.RaisedBy (encode (.pki16 signed)) ∧
    Cause.operandRange.RaisedBy (encode (.pkchr signed)) := by
  cases signed <;> exact ⟨rfl, rfl⟩

theorem badLength_raisedBy_integer (signed : Bool) : Cause.badLength.RaisedBy (encode (.upi16 signed)) ∧
    Cause.badLength.RaisedBy (encode (.upchr signed)) := by
  cases signed <;> exact ⟨rfl, rfl⟩

theorem badLength_raisedBy_upf32 (time index : Bool) : Cause.badLength.RaisedBy (encode (.upf32 time index)) := by
  cases time <;> cases index <;> exact rfl

theorem execUpi16_answers (signed : Bool) (s : State) :
    Answers (encode (.upi16 signed)) (Completes s (.upi16 signed)) s (execUpi16 signed s) := by
  refine .unlessPending fun hclear => ?_
  split
  case h_1 hpay => exact .completes (.upi16One signed hclear hpay)
  case h_2 hpay => exact .completes (.upi16Two signed hclear hpay)
  case h_3 => exact .raise (badLength_raisedBy_integer signed).1

theorem execUpchr_answers (signed : Bool) (s : State) :
    Answers (encode (.upchr signed)) (Completes s (.upchr signed)) s (execUpchr signed s) := by
  refine .unlessPending fun hclear => ?_
  split
  case h_1 hpay => exact .completes (.upchr signed hclear hpay)
  case h_2 => exact .raise (badLength_raisedBy_integer signed).2

theorem execUpf24_answers (s : State) : Answers (encode .upf24) (Completes s .upf24) s (execUpf24 s) := by
  refine .unlessPending fun hclear => ?_
  split
  case h_1 hpay => exact .completes (.upf24 hclear hpay)
  case h_2 => exact .raise rfl

theorem addressRange_raisedBy (q : Bool) : Cause.addressRange.RaisedBy (encode (.fpack q)) := by
  cases q <;> exact rfl

theorem execFpack_answers (q : Bool) (s : State) :
    Answers (encode (.fpack q)) (Completes s (.fpack q)) s (execFpack q s) := by
  refine .unlessPending fun hclear => .ite (fun hfull => ?withPayload) fun hrequest =>
    .ite (fun _ => .raise (addressRange_raisedBy q)) fun haddr => .completes (.fpack hclear ?_ ?_)
  case withPayload =>
    obtain ⟨rfl, -⟩ : q = true ∧ s.pay ≠ [] := by simpa using hfull
    exact .raise rfl
  · simpa using hrequest
  · simpa [addressHigh_eq_zero_iff] using haddr

theorem execFunpk_answers (s : State) : Answers (encode .funpk) (Completes s .funpk) s (execFunpk s) :=
  .unlessPending fun hclear => .ite (fun _ => .raise rfl) fun hlen => .ite (fun _ => .raise rfl) fun hcrc =>
    .ite (fun _ => .raise rfl) fun hsize =>
      .completes (.funpk hclear (Nat.not_lt.1 hlen) (not_not.1 hcrc) (not_not.1 hsize))

theorem execRunpk_answers (s : State) : Answers (encode .runpk) (Completes s .runpk) s (execRunpk s) :=
  .unlessPending fun hclear => .ite (fun _ => .raise rfl) fun hstart => .ite (fun _ => .raise rfl) fun hend =>
    .ite (fun _ => .raise rfl) fun heven => .ite (fun _ => .raise rfl) fun hnibbles =>
      .completes (.runpk hclear (not_not.1 hstart) (not_not.1 hend) (not_not.1 heven) (by simpa using hnibbles))

/-! ### Every command, and every word -/

/-- Every command completes as `Completes` says, is refused, or fails with a cause its word can raise. -/
theorem exec_answers (i : Instr) (s : State) : Answers (encode i) (Completes s i) s (exec i s) := by
  cases i with
  | nop => exact .completes .nop
  | clrerr => exact .completes .clrerr
  | srst => exact .completes .srst
  | rdr r => exact execRdr_answers r s
  | wrr r => exact execWrr_answers r s
  | bclr b => exact execBclr_answers b s
  | bpush b => exact execBpush_answers b s
  | brd b => exact execBrd_answers b s
  | blen b => exact execBlen_answers b s
  | hclr => exact .unlessPending fun hclear => .completes (.hclr hclear)
  | hchr c => exact execHchr_answers c s
  | hmix => exact .unlessPending fun hclear => .completes (.hmix hclear)
  | cclr => exact .unlessPending fun hclear => .completes (.cclr hclear)
  | cbyte v => exact .unlessPending fun hclear => .completes (.cbyte v hclear)
  | cbuf b => exact execCbuf_answers b s
  | pki16 signed =>
    exact .unlessPending fun hclear => .ite (fun hfits => .completes (.pki16 hclear hfits))
      fun _ => .raise (operandRange_raisedBy_pack signed).1
  | pkchr signed =>
    exact .unlessPending fun hclear => .ite (fun hfits => .completes (.pkchr hclear hfits))
      fun _ => .raise (operandRange_raisedBy_pack signed).2
  | pkf32 time index => exact .unlessPending fun hclear => .completes (.pkf32 time index hclear)
  | pkf24 => exact .unlessPending fun hclear => .completes (.pkf24 hclear)
  | pkstr => exact .unlessPending fun hclear => .completes (.pkstr hclear)
  | upi16 signed => exact execUpi16_answers signed s
  | upchr signed => exact execUpchr_answers signed s
  | upf32 time index =>
    exact .unlessPending fun hclear => .ite (fun _ => .raise (badLength_raisedBy_upf32 time index))
      fun hlen => .completes (.upf32 hclear (not_not.1 hlen))
  | upf24 => exact execUpf24_answers s
  | upstr => exact .unlessPending fun hclear => .completes (.upstr hclear)
  | fpack q => exact execFpack_answers q s
  | funpk => exact execFunpk_answers s
  | rpack => exact .unlessPending fun hclear => .completes (.rpack hclear)
  | runpk => exact execRunpk_answers s

/-- A command answered `ok = 1` completed in one of its ways. -/
theorem completes_of_ok {i : Instr} {s t : State} {rdata : Word} (h : exec i s = .next t)
    (hok : t.rsp = some ⟨true, rdata⟩) : Completes s i t :=
  (h ▸ exec_answers i s).done_of_ok hok

end Sys2Proof.Machine
end

-- One step of the machine: all that a word and a host event can do, and the statements of R51, R60 and U26.
section
/-! The answers of `exec_answers` carried to the port. A word is answered as its command, or fails with one of the two
causes of a word that is no command (R65, R66); a step is that for the oldest event, the reset input, or nothing. -/

namespace Sys2Proof.Machine

/-! ### Words that are no command (R65, R66) -/

/-- A byte the format's check refuses is past its `n` modifier bits. -/
theorem lt_toNat_of_reservedBits {imm : Byte} {n : Nat} (h : imm >>> n ≠ 0#8) : 2 ^ n ≤ imm.toNat := by
  refine Nat.le_of_not_lt fun hlt => h (BitVec.eq_of_toNat_eq ?_)
  simpa [Nat.shiftRight_eq_div_pow] using hlt

/-- The two ways the decoder rejects a word are the two lists of reserved words. -/
theorem decode_eq_error {cw : Half} {e : DecodeError} (h : decode cw = .error e) :
    (e = .reservedOpcode ∧ reservedOpcode (opcOf cw) = true) ∨
      (e = .reservedImmediate ∧ illegalImmediate cw = true) := by
  by_cases hres : reservedOpcode (opcOf cw) = true
  · cases (decode_of_reservedOpcode hres).symm.trans h
    exact .inl ⟨rfl, hres⟩
  rcases not_not.1 (mt (reservedOpcode_iff _).2 hres) with hopc | hopc | hopc | hopc | hopc | hopc
  · obtain ⟨i, hd⟩ := decode_of_opcodesZ hopc
    rw [hd, formatZ] at h
    split at h <;> cases h
    exact .inr ⟨rfl, illegalImmediate_iff.2 (.inl ⟨hopc, ‹_›⟩)⟩
  · obtain ⟨i, hd, -⟩ := decode_of_opcodesR hopc
    cases hd.symm.trans h
  · obtain ⟨i, hd, -⟩ := decode_of_opcodesB hopc
    cases hd.symm.trans h
  · obtain ⟨f, hd⟩ := decode_of_opcodesM1 hopc
    rw [hd, formatM1] at h
    split at h <;> cases h
    exact .inr ⟨rfl, illegalImmediate_iff.2 (.inr (.inr (.inr (.inl ⟨hopc, lt_toNat_of_reservedBits ‹_›⟩))))⟩
  · obtain ⟨f, hd⟩ := decode_of_opcodesM2 hopc
    rw [hd, formatM2] at h
    split at h <;> cases h
    exact .inr ⟨rfl, illegalImmediate_iff.2 (.inr (.inr (.inr (.inr ⟨hopc, lt_toNat_of_reservedBits ‹_›⟩))))⟩
  · simp only [List.mem_cons, List.not_mem_nil, or_false] at hopc
    rcases hopc with hopc | hopc <;> simp [decode, hopc] at h

/-! ### Every word, and every step -/

/-- A command whose word is `cw` completed. -/
def CompletesWord (s : State) (cw : Half) (t : State) : Prop := ∃ i, encode i = cw ∧ Completes s i t

theorem performCommand_answers (s : State) : Answers s.cw (CompletesWord s s.cw) s (performCommand s) := by
  cases hd : decode s.cw with
  | ok i =>
    have henc : encode i = s.cw := encode_of_decode hd
    rw [performCommand_of_ok hd]
    rw [← henc]
    exact (exec_answers i s).mono fun _ h => ⟨i, rfl, h⟩
  | error e =>
    rw [performCommand_of_error hd]
    rcases decode_eq_error hd with ⟨rfl, hres⟩ | ⟨rfl, hill⟩
    · exact .raise (reservedOpcode_raisedBy hres)
    · exact .raise (reservedImmediate_raisedBy hill)

theorem step_of_command {s : State} {cw : Half} {wdata : Word} {rest : List HostEvent}
    (h : s.inbox = .command cw wdata :: rest) : step s = performCommand (s.accept cw wdata rest) := by
  simp only [step, takeEvent, h]

theorem step_of_nil {s : State} (h : s.inbox = []) : step s = .next s := by
  simp only [step, takeEvent, h]

/-- The package of an invariant of the block: a step keeps `P` when it holds after reset and is kept by every way to
complete and by every fault. The port's own fields must not matter to it. -/
theorem step_keeps {P : Block → Prop} (hreset : P Block.reset)
    (hcompletes : ∀ {s t : State} {i : Instr}, Completes s i t → P s.toBlock → P t.toBlock)
    (hfails : ∀ {s : State} {c : Cause}, c.RaisedBy s.cw → P s.toBlock → P (s.failed c.kind.code c.code).toBlock)
    {s t : State} (hs : P s.toBlock) (h : step s = .next t) : P t.toBlock := by
  rcases hinbox : s.inbox with _ | ⟨_ | ⟨cw, wdata⟩, rest⟩
  · rw [step_of_nil hinbox] at h
    cases h
    exact hs
  · rw [step_of_reset hinbox] at h
    cases h
    exact hreset
  · rw [step_of_command hinbox] at h
    cases h ▸ performCommand_answers (s.accept cw wdata rest) with
    | completes hdone =>
      obtain ⟨i, -, hi⟩ := hdone
      exact hcompletes hi hs
    | refuses _ => exact hs
    | faults _ hc => exact hfails hc hs

/-! ### The statements -/

/-- Settles O1: one equation of `step` for each form of the host's list. -/
theorem stepTakesTheOldestHostEvent : Obligations.StepTakesTheOldestHostEvent :=
  ⟨fun _ _ _ _ _ hinbox hd => (step_of_command hinbox).trans (performCommand_of_ok hd),
    fun _ _ hinbox => step_of_reset hinbox, fun _ hinbox => step_of_nil hinbox⟩

/-- Settles O10: an answer is always a next state, for a command and so for the oldest event. -/
theorem everyStepAnswersANextState : Obligations.EveryStepAnswersANextState := by
  refine ⟨fun s => ?_, fun i s => (exec_answers i s).exists_next⟩
  rcases hinbox : s.inbox with _ | ⟨_ | ⟨cw, wdata⟩, rest⟩
  · exact ⟨s, step_of_nil hinbox⟩
  · exact ⟨_, step_of_reset hinbox⟩
  · rw [step_of_command hinbox]
    exact (performCommand_answers _).exists_next

/-- Completing leaves what the host presented, and `rdata` is 0 for every command that reads nothing. -/
theorem Completes.port {s t : State} {i : Instr} (h : Completes s i t) :
    t.inbox = s.inbox ∧ t.cw = s.cw ∧ t.wdata = s.wdata ∧ ∃ rdata, t.rsp = some ⟨true, rdata⟩ ∧
      (opcOf (encode i) ∉ [0x03#8, 0x07#8, 0x08#8] → rdata = 0#32) := by
  cases h with
  | rdr _ | brd _ | blen _ =>
    exact ⟨rfl, rfl, rfl, _, rfl, fun hnot => absurd (by simp [encode, commandWord, opcOf, hi_append]) hnot⟩
  | @wrr reg => cases reg <;> exact ⟨rfl, rfl, rfl, _, rfl, fun _ => rfl⟩
  | bclr x => cases x <;> exact ⟨rfl, rfl, rfl, _, rfl, fun _ => rfl⟩
  | @bpush x => cases x <;> exact ⟨rfl, rfl, rfl, _, rfl, fun _ => rfl⟩
  | _ => exact ⟨rfl, rfl, rfl, _, rfl, fun _ => rfl⟩

/-- Settles O9: the port after each of the three answers; a refusal and a fault answer `rdata = 0`. -/
theorem everyCommandIsAnsweredAtThePort : Obligations.EveryCommandIsAnsweredAtThePort := by
  intro s cw wdata
  have answers : Answers cw (CompletesWord (s.onPort cw wdata) cw) (s.onPort cw wdata) (step (s.present cw wdata)) :=
    performCommand_answers (s.onPort cw wdata)
  obtain ⟨t, ht⟩ := answers.exists_next
  refine ⟨t, ?_⟩
  cases ht ▸ answers with
  | completes hdone =>
    obtain ⟨i, rfl, hi⟩ := hdone
    obtain ⟨hinbox, hcw, hwdata, rdata, hrsp, hzero⟩ := hi.port
    exact ⟨true, rdata, ht, hrsp, hinbox, hcw, hwdata, nofun, hzero⟩
  | refuses _ => exact ⟨false, 0, ht, rfl, rfl, rfl, rfl, fun _ => rfl, fun _ => rfl⟩
  | faults _ _ => exact ⟨false, 0, ht, rfl, rfl, rfl, rfl, fun _ => rfl, fun _ => rfl⟩

end Sys2Proof.Machine
end

-- What a command reads and writes: the statements of U25, R48 and the `written by` lists of 10_state.
section
/-! Three readings of the ways to complete: which commands look at `wdata`, that completing again from the state after
writes the same, and which command writes which component. -/

namespace Sys2Proof.Machine

/-! ### `wdata` (U25) -/

/-- What `r` answers, `r'` answers with `w` on `wdata` in place of what stands there. -/
def SameButWdata (w : Word) (r r' : Result) : Prop := ∀ t, r = .next t → r' = .next { t with wdata := w }

section Wdata
variable {s : State} {w : Word} {a a' b b' : Result}

theorem SameButWdata.next (t : State) : SameButWdata w (.next t) (.next { t with wdata := w }) := by
  rintro _ ⟨⟩
  rfl

theorem SameButWdata.ite {p : Prop} [Decidable p] (hthen : SameButWdata w a a') (helse : SameButWdata w b b') :
    SameButWdata w (if p then a else b) (if p then a' else b') := by
  split
  · exact hthen
  · exact helse

/-- A fault records the command word and not the write data. -/
theorem SameButWdata.raise (c : Cause) : SameButWdata w (raise c s) (raise c { s with wdata := w }) := by
  intro t h
  rcases raise_answers h with ⟨hpending, rfl⟩ | ⟨hclear, rfl⟩
  · exact raise_of_pending c hpending
  · exact raise_of_clear c hclear

theorem SameButWdata.unlessPending (h : SameButWdata w a a') :
    SameButWdata w (unlessPending s a) (unlessPending { s with wdata := w } a') := by
  intro t ht
  rcases unlessPending_answers ht with ⟨hpending, rfl⟩ | ⟨hclear, ha⟩
  · exact unlessPending_of_pending a' hpending
  · exact (unlessPending_of_clear (s := { s with wdata := w }) a' hclear).trans (h t ha)

end Wdata

/-- `B <- l` does not look at the port. -/
theorem setBuf_withWdata (s : State) (x : Buf) (l : List Byte) (w : Word) :
    ({ s with wdata := w } : State).setBuf x l = { s.setBuf x l with wdata := w } := by
  cases x <;> rfl

theorem buf_withWdata (s : State) (x : Buf) (w : Word) : ({ s with wdata := w } : State).buf x = s.buf x := by
  cases x <;> rfl

theorem readReg_withWdata (s : State) (reg : Reg) (w : Word) :
    ({ s with wdata := w } : State).readReg reg = s.readReg reg := by
  cases reg <;> rfl

/-- Settles O11: branch by branch, with another value on `wdata` a command takes the same branch. -/
theorem otherCommandsIgnoreWdata : Obligations.OtherCommandsIgnoreWdata := by
  intro i s t w hother
  suffices SameButWdata w (exec i s) (exec i { s with wdata := w }) from this t
  cases i with
  | wrr x => exact absurd rfl (hother x).1
  | bpush x => exact absurd rfl (hother x).2.1
  | brd x => exact absurd rfl (hother x).2.2
  | nop | clrerr | srst => exact .next _
  | rdr r =>
    simp only [exec, execRdr, readReg_withWdata]
    cases regOf? r with
    | none => exact .raise _
    | some reg => exact .next _
  | blen b =>
    simp only [exec, execBlen, buf_withWdata]
    cases bufOf? b with
    | none => exact .raise _
    | some x => exact .next _
  | bclr b =>
    simp only [exec, execBclr, State.bufClr, setBuf_withWdata]
    refine .unlessPending ?_
    cases bufOf? b with
    | none => exact .raise _
    | some x => exact .next _
  | cbuf b =>
    simp only [exec, execCbuf, buf_withWdata]
    refine .unlessPending ?_
    cases bufOf? b with
    | none => exact .raise _
    | some x => exact .next _
  | hclr | hmix | cclr | cbyte _ | pkf32 _ _ | pkf24 | pkstr | upstr | rpack => exact .unlessPending (.next _)
  | hchr c =>
    refine .unlessPending (.ite (.next _) (.ite (.next _) (.ite (.ite (.raise _) (.ite (.raise _) (.next _))) ?_)))
    cases nameCode c with
    | none => exact .raise _
    | some k => exact .ite (.raise _) (.next _)
  | pki16 _ | pkchr _ => exact .unlessPending (.ite (.next _) (.raise _))
  | upi16 _ =>
    simp only [exec, execUpi16]
    refine .unlessPending ?_
    split
    · exact .next _
    · exact .next _
    · exact .raise _
  | upchr _ =>
    simp only [exec, execUpchr]
    refine .unlessPending ?_
    split
    · exact .next _
    · exact .raise _
  | upf24 =>
    simp only [exec, execUpf24]
    refine .unlessPending ?_
    split
    · exact .next _
    · exact .raise _
  | upf32 _ _ => exact .unlessPending (.ite (.raise _) (.next _))
  | fpack _ => exact .unlessPending (.ite (.raise _) (.ite (.raise _) (.next _)))
  | funpk => exact .unlessPending (.ite (.raise _) (.ite (.raise _) (.ite (.raise _) (.next _))))
  | runpk =>
    exact .unlessPending (.ite (.raise _) (.ite (.raise _) (.ite (.raise _) (.ite (.raise _) (.next _)))))

end Sys2Proof.Machine
end

-- Completing twice, and the written-by lists: the statements of R48 and of 10_state.
section
/-! Two readings of the ways to complete: the state after meets the checks of the same command again and already holds
what it writes, and each way writes the components its command is listed for. -/

namespace Sys2Proof.Machine

/-! ### Idempotence (R48) -/

/-- What `Completes` lists is what `exec` does: the converse of `exec_answers` for the ways to complete. -/
theorem Completes.exec_eq {s t : State} {i : Instr} (h : Completes s i t) : exec i s = .next t := by
  cases h with
  | nop | clrerr | srst => rfl
  | rdr _ | blen _ => simp [exec, execRdr, execBlen, answer_eq_completed]
  | brd hv => simp [exec, execBrd, hv, answer_eq_completed]
  | wrr hclear hw hfits => exact exec_wrr_fits hclear (regOf?_number _) hw (fitsUnsigned_iff.1 hfits)
  | bclr x hclear => exact exec_bclr_of_bufOf? hclear (bufOf?_number x)
  | bpush hclear hfits hroom =>
    simp [exec, execBpush, unlessPending_of_clear _ hclear, hfits, hroom, done_eq_completed]
  | hclr hclear | hmix hclear | cclr hclear | cbyte _ hclear | pkf32 _ _ hclear | pkf24 hclear | pkstr hclear
  | upstr hclear | rpack hclear => exact unlessPending_of_clear _ hclear
  | hchrAfterSpace _ hclear hdone => exact exec_hchr_afterSpace hclear hdone
  | hchrSpace hclear hopen => exact exec_hchr_space hclear hopen
  | hchrDot hclear hopen hsome hunmarked =>
    simp [exec, execHchr, unlessPending_of_clear _ hclear, hopen, charDot_ne_charSpace, hsome, hunmarked,
      done_eq_completed, -BitVec.getLsbD_eq_getElem]
  | hchrSymbol hclear hopen hcode hroom => exact exec_hchr_symbol hclear hopen hcode hroom
  | cbuf x hclear => simp [exec, execCbuf, unlessPending_of_clear _ hclear, done_eq_completed]
  | pki16 hclear hfits => simp [exec, execPki16, unlessPending_of_clear _ hclear, hfits, done_eq_completed]
  | pkchr hclear hfits => exact exec_pkchr_fits hclear hfits
  | upi16One _ hclear hpay | upi16Two _ hclear hpay =>
    simp [exec, execUpi16, unlessPending_of_clear _ hclear, hpay, done_eq_completed]
  | upchr _ hclear hpay => exact exec_upchr_one hclear hpay
  | upf32 hclear hlen => simp [exec, execUpf32, unlessPending_of_clear _ hclear, hlen, done_eq_completed]
  | upf24 hclear hpay => exact exec_upf24_three hclear hpay
  | fpack hclear hrequest haddr => exact exec_fpack hclear hrequest haddr rfl
  | funpk hclear hlen hcrc hsize =>
    simp [exec, execFunpk, unlessPending_of_clear _ hclear, Config.minFrame, Nat.not_lt.2 hlen, hcrc, hsize,
      done_eq_completed]
  | runpk hclear hstart hend heven hnibbles =>
    simp [exec, execRunpk, unlessPending_of_clear _ hclear, hstart, hend, heven, hnibbles, done_eq_completed]

/-- No command but BPUSH, CBYTE and HCHR writes a component that its checks or its value are read from. -/
theorem Completes.again {s t : State} {i : Instr} (h : Completes s i t)
    (hother : ∀ x, i ≠ .bpush x ∧ i ≠ .cbyte x ∧ i ≠ .hchr x) : Completes t i t := by
  cases h with
  | bpush | cbyte | hchrAfterSpace | hchrSpace | hchrDot | hchrSymbol => simp at hother
  | nop => exact .nop
  | clrerr => exact .clrerr
  | srst => exact .srst
  | rdr reg =>
    have same : s.readReg reg = (s.completed (s.readReg reg)).readReg reg := by cases reg <;> rfl
    exact same ▸ .rdr reg
  | @wrr reg hclear hw hfits =>
    cases reg with
    | cfg | addr | hash | val | vtime | vidx => exact .wrr hclear hw hfits
    | _ => cases hw
  | bclr x hclear => cases x <;> exact .bclr _ hclear
  | @brd x v hv =>
    have same : (s.completed (v.setWidth 32)).bufRead x s.wdata.toNat = some v := by
      rw [← hv]; cases x <;> rfl
    exact .brd same
  | blen x => cases x <;> exact .blen _
  | hclr hclear => exact .hclr hclear
  | hmix hclear => exact .hmix hclear
  | cclr hclear => exact .cclr hclear
  | cbuf x hclear => cases x <;> exact .cbuf _ hclear
  | pki16 hclear hfits => exact .pki16 hclear hfits
  | pkchr hclear hfits => exact .pkchr hclear hfits
  | pkf32 time index hclear => exact .pkf32 time index hclear
  | pkf24 hclear => exact .pkf24 hclear
  | pkstr hclear => exact .pkstr hclear
  | upi16One signed hclear hpay => exact .upi16One signed hclear hpay
  | upi16Two signed hclear hpay => exact .upi16Two signed hclear hpay
  | upchr signed hclear hpay => exact .upchr signed hclear hpay
  | @upf32 time index hclear hlen => cases time <;> cases index <;> exact .upf32 hclear hlen
  | upf24 hclear hpay => exact .upf24 hclear hpay
  | upstr hclear => exact .upstr hclear
  | fpack hclear hrequest haddr => exact .fpack hclear hrequest haddr
  | funpk hclear hlen hcrc hsize => exact .funpk hclear hlen hcrc hsize
  | rpack hclear => exact .rpack hclear
  | runpk hclear hstart hend heven hnibbles => exact .runpk hclear hstart hend heven hnibbles

/-- Settles O12: from the state after, the command completes in the same way. -/
theorem completedCommandsAreIdempotent : Obligations.CompletedCommandsAreIdempotent :=
  fun _ _ _ hother h ⟨_, hok⟩ => ((completes_of_ok h hok).again hother).exec_eq

/-! ### The `written by` lists (10_state sections 2, 5 and 7) -/

/-- Settles O13: a refusal writes the answer alone and a fault the error record too; a way to complete writes what its
constructor shows, where WRR and the buffer commands split by what their operand names, and UPF32 by its modifiers. -/
theorem componentsAreWrittenByTheirCommandsOnly : Obligations.ComponentsAreWrittenByTheirCommandsOnly := by
  intro i s t hsrst h
  have answers := exec_answers i s
  rw [h] at answers
  cases answers with
  | refuses _ => simp [State.refused]
  | faults _ _ => simp [State.failed]
  | completes hdone =>
    cases hdone with
    | srst => exact absurd rfl hsrst
    | @wrr reg _ _ _ => cases reg <;> simp [Reg.number, State.writeReg]
    | bclr x _ => cases x <;> simp [Buf.number, State.bufClr]
    | @bpush x _ _ _ => cases x <;> simp [Buf.number, State.bufPush]
    | @upf32 x y _ _ => cases x <;> cases y <;> simp
    | _ => simp

end Sys2Proof.Machine
end

-- The invariants of every step: buffers within capacity (R22), a legal scanner (R19, R20), a consistent error record
-- (R181).
section
/-! Each invariant is read as a predicate of the block, is met by the reset block, and is kept by every way to complete
and by every fault; `step_keeps` makes the statement of that. -/

namespace Sys2Proof.Machine

/-! ### Buffers within capacity (R22) -/

/-- `Memory.wf` as a predicate of the block. -/
def Block.BuffersFit (b : Block) : Prop :=
  b.pay.length ≤ 15 ∧ b.frm.length ≤ 21 ∧ b.raw.length ≤ 44 ∧ b.str.length ≤ 15

theorem memory_wf_iff_buffersFit {s : State} : Memory.wf s = true ↔ s.BuffersFit := memory_wf_iff

theorem buffersFit_reset : Block.reset.BuffersFit := reset_memory_canonical

/-- An IEEE32 payload has 4 to 8 bytes (R134). -/
theorem float32Payload_length_le (time index : Bool) (val : Word) (vtime vidx : Half) :
    (float32Payload time index val vtime vidx).length ≤ 8 := by
  cases time <;> cases index <;> simp [float32Payload]

/-- A buffer is replaced by content that fits: a Frame by a payload of 15, a RawFrame by a Frame of 21 (R22). -/
theorem Completes.keeps_buffersFit {s t : State} {i : Instr} (h : Completes s i t) (hs : s.BuffersFit) :
    t.BuffersFit := by
  have ⟨hpay, hfrm, hraw, hstr⟩ := hs
  cases h with
  | srst => exact buffersFit_reset
  | @wrr reg _ _ _ => cases reg <;> exact hs
  | bclr x _ => exact memory_wf_iff_buffersFit.1 (bufClr_keeps_wf (memory_wf_iff_buffersFit.2 hs))
  | bpush _ _ hroom => exact memory_wf_iff_buffersFit.1 (bufPush_keeps_wf (memory_wf_iff_buffersFit.2 hs) hroom)
  | pki16 | pkchr | pkf24 => exact ⟨by simp, hfrm, hraw, hstr⟩
  | pkf32 time index _ => exact ⟨(float32Payload_length_le ..).trans (by decide), hfrm, hraw, hstr⟩
  | pkstr _ => exact ⟨by simpa using hstr, hfrm, hraw, hstr⟩
  | upstr _ => exact ⟨hpay, hfrm, hraw, by simpa using hpay⟩
  | fpack => exact ⟨hpay, by simpa using hpay, hraw, hstr⟩
  | funpk => exact ⟨by simp [framePayload_length]; omega, hfrm, hraw, hstr⟩
  | rpack _ => exact ⟨hpay, hfrm, by simp [rawFrame_length]; omega, hstr⟩
  | runpk => exact ⟨hpay, by simp [joinNibbles_length, betweenMarkers_length]; omega, hraw, hstr⟩
  | _ => exact hs

/-- Settles O14: a fault writes no buffer, and completing replaces a buffer by content that fits. -/
theorem everyStepKeepsBuffersInCapacity : Obligations.EveryStepKeepsBuffersInCapacity := fun _ _ hs h =>
  memory_wf_iff_buffersFit.2 (step_keeps (P := Block.BuffersFit) buffersFit_reset Completes.keeps_buffersFit
    (fun _ hs => hs) (memory_wf_iff_buffersFit.1 hs) h)

/-! ### The scanner (R19, R20) -/

/-- `ScannerInv` as a predicate of the block. -/
def Block.ScannerLegal (b : Block) : Prop :=
  b.sidx.toNat ≤ 4 ∧ ∀ i < 4, if i < b.sidx.toNat then (b.slots.get i).toNat ≤ 77 else b.slots.get i = 78#7

theorem scannerInv_iff_scannerLegal {s : State} : ScannerInv s ↔ s.ScannerLegal := Iff.rfl

/-- No slot filled: all four hold the fill value. -/
theorem scannerLegal_of_filled {b : Block} (hslots : b.slots = Slots.filled) (hsidx : b.sidx = 0#3) :
    b.ScannerLegal := by
  rw [Block.ScannerLegal, hslots, hsidx]
  decide

theorem scannerLegal_reset : Block.reset.ScannerLegal := scannerLegal_of_filled rfl rfl

/-- A slot without the dot holds an even value, so the dot leaves it at most 77 (R19). -/
theorem dotted_le {k : BitVec 7} (hle : k.toNat ≤ 77) (hunmarked : k.getLsbD 0 = false) : (k + 1#7).toNat ≤ 77 := by
  revert k
  decide

/-- Where a symbol has been scanned, the last filled slot takes the dot. -/
theorem scannerLegal_dot {s : State} (hs : s.ScannerLegal) (hsome : s.sidx ≠ 0#3)
    (hunmarked : (s.slots.get (s.sidx.toNat - 1)).getLsbD 0 = false) :
    Block.ScannerLegal { s.toBlock with
      slots := s.slots.set (s.sidx.toNat - 1) (s.slots.get (s.sidx.toNat - 1) + 1#7) } := by
  obtain ⟨hsidx, hslots⟩ := hs
  have hpos : s.sidx.toNat ≠ 0 := fun hzero => hsome (BitVec.eq_of_toNat_eq hzero)
  refine ⟨hsidx, fun i hi => ?_⟩
  dsimp only
  by_cases hlast : i = s.sidx.toNat - 1
  · have hold := hslots i hi
    have hfilled : i < s.sidx.toNat := by omega
    rw [if_pos hfilled] at hold ⊢
    subst hlast
    rw [get_set_same _ hi]
    exact dotted_le hold hunmarked
  · rw [get_set_other _ (Ne.symm hlast)]
    exact hslots i hi

theorem toNat_sidx_succ {idx : BitVec 3} (h : idx.toNat < 4) : (idx + 1#3).toNat = idx.toNat + 1 := by
  rw [BitVec.toNat_add]
  exact Nat.mod_eq_of_lt (by simp; omega)

/-- Where there is room, the first unfilled slot takes the code of the symbol. -/
theorem scannerLegal_symbol {s : State} {c : Byte} {k : BitVec 7} (hs : s.ScannerLegal) (hcode : nameCode c = some k)
    (hroom : s.sidx ≠ 4#3) :
    Block.ScannerLegal { s.toBlock with slots := s.slots.set s.sidx.toNat k, sidx := s.sidx + 1#3 } := by
  obtain ⟨hsidx, hslots⟩ := hs
  have hlt : s.sidx.toNat < 4 := lt_of_le_of_ne hsidx fun h => hroom (BitVec.eq_of_toNat_eq h)
  have hnext : (s.sidx + 1#3).toNat = s.sidx.toNat + 1 := toNat_sidx_succ hlt
  refine ⟨by dsimp only; omega, fun i hi => ?_⟩
  dsimp only
  rw [hnext]
  by_cases hnew : i = s.sidx.toNat
  · rw [if_pos (by omega), hnew, get_set_same _ hlt]
    exact (nameCode_even_le hcode).1.trans (by decide)
  · rw [get_set_other _ (Ne.symm hnew)]
    have hsame : i < s.sidx.toNat + 1 ↔ i < s.sidx.toNat := by omega
    simpa only [hsame] using hslots i hi

/-- Only HCLR, HCHR and SRST write the scanner. -/
theorem Completes.keeps_scannerLegal {s t : State} {i : Instr} (h : Completes s i t) (hs : s.ScannerLegal) :
    t.ScannerLegal := by
  cases h with
  | srst => exact scannerLegal_reset
  | hclr _ => exact scannerLegal_of_filled rfl rfl
  | hchrDot _ _ hsome hunmarked => exact scannerLegal_dot hs hsome hunmarked
  | hchrSymbol _ _ hcode hroom => exact scannerLegal_symbol hs hcode hroom
  | @wrr reg _ _ _ => cases reg <;> exact hs
  | bclr x _ => cases x <;> exact hs
  | @bpush x _ _ _ => cases x <;> exact hs
  | _ => exact hs

/-- Settles O15: a fault leaves the scanner, and a dot or a symbol writes the one slot it may. -/
theorem everyStepKeepsTheScannerLegal : Obligations.EveryStepKeepsTheScannerLegal := fun _ _ hs h =>
  scannerInv_iff_scannerLegal.2 (step_keeps (P := Block.ScannerLegal) scannerLegal_reset
    Completes.keeps_scannerLegal (fun _ hs => hs) (scannerInv_iff_scannerLegal.1 hs) h)

/-! ### The error record (R14, R15, R181) -/

/-- `RecordInv` as a predicate of the block. -/
def Block.RecordConsistent (b : Block) : Prop :=
  if b.ekind = 0#3 then b.ecause = 0#8 ∧ b.ecmd = 0#16 else raisedBy (0#5 ++ b.ekind ++ b.ecause) b.ecmd = true

theorem recordInv_iff_recordConsistent {s : State} : RecordInv s ↔ s.RecordConsistent := Iff.rfl

theorem recordConsistent_of_clear {b : Block} (hkind : b.ekind = 0#3) (hcause : b.ecause = 0#8)
    (hcmd : b.ecmd = 0#16) : b.RecordConsistent := by
  rw [Block.RecordConsistent, if_pos hkind]
  exact ⟨hcause, hcmd⟩

/-- A fault records the word on the port, which is one that can raise its cause. -/
theorem recordConsistent_failed {s : State} {c : Cause} (hc : c.RaisedBy s.cw) :
    (s.failed c.kind.code c.code).RecordConsistent := by
  have hpending : (s.failed c.kind.code c.code).ekind ≠ 0#3 := cause_kind_code_ne c
  rw [Block.RecordConsistent, if_neg hpending]
  exact hc

/-- Completing leaves the record, but for the two commands that clear it. -/
theorem Completes.keeps_recordConsistent {s t : State} {i : Instr} (h : Completes s i t) (hs : s.RecordConsistent) :
    t.RecordConsistent := by
  cases h with
  | clrerr | srst => exact recordConsistent_of_clear rfl rfl rfl
  | @wrr reg _ _ _ => cases reg <;> exact hs
  | bclr x _ => cases x <;> exact hs
  | @bpush x _ _ _ => cases x <;> exact hs
  | _ => exact hs

/-- Settles O16: a fault writes a `STATUS` of the table beside a word the table lists under it. -/
theorem everyStepKeepsTheErrorRecordConsistent : Obligations.EveryStepKeepsTheErrorRecordConsistent :=
  fun _ _ hs h => recordInv_iff_recordConsistent.2 (step_keeps (P := Block.RecordConsistent)
    (recordConsistent_of_clear rfl rfl rfl) Completes.keeps_recordConsistent
    (fun hc _ => recordConsistent_failed hc) (recordInv_iff_recordConsistent.1 hs) h)

/-- Settles O17: the base case of the three. -/
theorem resetMeetsTheInvariants : Obligations.ResetMeetsTheInvariants :=
  ⟨memory_wf_iff_buffersFit.2 buffersFit_reset, scannerInv_iff_scannerLegal.2 scannerLegal_reset,
    recordInv_iff_recordConsistent.2 (recordConsistent_of_clear rfl rfl rfl)⟩

end Sys2Proof.Machine
end

-- Runs of presented commands: what one transfer does, and the statement of CRCOF.
section
/-! The pseudo-commands (30_encoding R69) as runs: one step takes one transfer, and the rest stays presented. -/

namespace Sys2Proof.Machine

/-- A transfer is performed as the command it was made from. -/
theorem step_transfer {s : State} {i : Instr} {wdata : Word} {rest : List HostEvent}
    (h : s.inbox = transfer i wdata :: rest) : step s = exec i (s.accept (encode i) wdata rest) :=
  (step_of_command h).trans (performCommand_of_ok (s := s.accept (encode i) wdata rest) (decode_encode i))

theorem run_of_step {s t : State} (h : step s = .next t) (n : Nat) :
    Host.Core.run core (n + 1) s = Host.Core.run core n t := by
  have hcore : core.step s = .next t := h
  simp only [Host.Core.run, hcore]

/-- The state `s` after a command of word `cw` that wrote `c` into `CRC`. -/
def State.leftCrc (s : State) (cw c : Half) : State := { s.onPort cw 0 with crc := c }.completed 0

/-- Each CBYTE goes on from the `CRC` before it (R123), and its word is the last on the port. -/
theorem run_cbytes {s : State} (hclear : s.ekind = 0#3) (bytes : List Byte) (cw c : Half) :
    ∃ cw', Host.Core.run core bytes.length
        ((s.leftCrc cw c).presentAll (bytes.map fun v => transfer (.cbyte v))) =
      .next (s.leftCrc cw' (bytes.foldl crcStep c)) := by
  induction bytes generalizing cw c with
  | nil => exact ⟨cw, rfl⟩
  | cons v bytes ih =>
    obtain ⟨cw', hrun⟩ := ih (encode (.cbyte v)) (crcStep c v)
    have hstep : step ((s.leftCrc cw c).presentAll ((v :: bytes).map fun v => transfer (.cbyte v))) =
        .next ((s.leftCrc (encode (.cbyte v)) (crcStep c v)).presentAll
          (bytes.map fun v => transfer (.cbyte v))) := by
      rw [step_transfer rfl]
      exact exec_cbyte hclear
    exact ⟨cw', (run_of_step hstep _).trans hrun⟩

/-- Settles O41: CCLR puts `CRC_INIT` into `CRC`, and the bytes follow. -/
theorem crcofComputesTheCrc16OfTheBytes : Obligations.CrcofComputesTheCrc16OfTheBytes := by
  intro s bytes hclear
  obtain ⟨cw, hrun⟩ := run_cbytes hclear bytes (encode .cclr) Config.crcInit
  have hstep : step (s.presentAll (pseudoCrcof bytes)) =
      .next ((s.leftCrc (encode .cclr) Config.crcInit).presentAll (bytes.map fun v => transfer (.cbyte v))) := by
    rw [step_transfer rfl]
    exact exec_cclr hclear
  exact ⟨cw, (run_of_step hstep _).trans hrun⟩

end Sys2Proof.Machine
end

-- Names: the scan character by character, and the statements of 41_hash section 4.
section
/-! `scanName` by the cases of R105, and what follows for `Hash(name)`. -/

namespace Sys2Proof.Machine

/-! ### The scan, case by case (R105) -/

section ScanName
variable {sl : Slots} {idx : Nat} {done : Bool} {c : Byte} {k : BitVec 7} (cs : List Byte)

/-- After a space nothing more is scanned. -/
@[simp] theorem scanName_afterSpace : scanName sl idx true cs = some sl := by
  induction cs with
  | nil => rfl
  | cons c cs ih => simpa [scanName] using ih

@[simp] theorem scanName_space : scanName sl idx done (Config.charSpace :: cs) = some sl := by
  cases done <;> simp [scanName]

theorem scanName_dotFirst : scanName sl 0 false (Config.charDot :: cs) = none := by
  simp [scanName, charDot_ne_charSpace]

theorem scanName_dotTwice (hmarked : (sl.get (idx - 1)).getLsbD 0 = true) :
    scanName sl idx false (Config.charDot :: cs) = none := by
  simp only [scanName, charDot_ne_charSpace, hmarked, if_true, if_false, ite_self, Bool.false_eq_true]

theorem scanName_dot (hsome : idx ≠ 0) (hunmarked : (sl.get (idx - 1)).getLsbD 0 = false) :
    scanName sl idx false (Config.charDot :: cs) =
      scanName (sl.set (idx - 1) (sl.get (idx - 1) + 1)) idx false cs := by
  simp only [scanName, charDot_ne_charSpace, hunmarked, hsome, if_true, if_false, Bool.false_eq_true]

theorem scanName_illegalChar (hspace : c ≠ Config.charSpace) (hdot : c ≠ Config.charDot) (hcode : nameCode c = none) :
    scanName sl idx false (c :: cs) = none := by
  simp [scanName, hspace, hdot, hcode]

/-- A character with a code, in every state of the scan. -/
theorem scanName_symbol (hcode : nameCode c = some k) : scanName sl idx done (c :: cs) =
    if done then some sl else if idx = 4 then none else scanName (sl.set idx k) (idx + 1) done cs := by
  cases done <;> simp [scanName, ne_charSpace_of_nameCode hcode, ne_charDot_of_nameCode hcode, hcode]

/-- Two endings that scan alike from everywhere scan alike after any beginning. -/
theorem scanName_append_congr {a b : List Byte} (h : ∀ sl idx done, scanName sl idx done a = scanName sl idx done b)
    (pre : List Byte) (sl : Slots) (idx : Nat) (done : Bool) :
    scanName sl idx done (pre ++ a) = scanName sl idx done (pre ++ b) := by
  induction pre generalizing sl idx done with
  | nil => exact h sl idx done
  | cons c pre ih => simp only [List.cons_append, scanName, ih]

end ScanName

/-! ### `Hash(name)` (41_hash section 4) -/

/-- A capital letter and its small letter have one code (R100). -/
theorem nameCode_toLower {c : Byte} (hlo : 0x41 ≤ c.toNat) (hhi : c.toNat ≤ 0x5A) :
    nameCode (c + 0x20) = nameCode c := by
  have hsmall : (c + 0x20).toNat = c.toNat + 0x20 := by
    rw [BitVec.toNat_add]
    exact Nat.mod_eq_of_lt (by simp; omega)
  rw [nameCode_upper hlo hhi, nameCode_lower (by omega) (by omega), hsmall, Nat.add_sub_add_right _ 0x20 0x41]

/-- Settles O36: the two names differ in one character of one code, or in a tail that is not scanned. -/
theorem hashIgnoresCaseAndTheTailAfterASpace : Obligations.HashIgnoresCaseAndTheTailAfterASpace := by
  refine ⟨fun pre post c hlo hhi => ?letterCase, fun name tail => ?tail⟩
  case letterCase =>
    have hcode := nameCode_upper hlo hhi
    have alike : ∀ sl idx done, scanName sl idx done (c :: post) = scanName sl idx done ((c + 0x20) :: post) := by
      intro sl idx done
      rw [scanName_symbol post hcode, scanName_symbol post ((nameCode_toLower hlo hhi).trans hcode)]
    simp only [List.append_assoc, List.singleton_append, hashName, scanName_append_congr alike]
  case tail =>
    have alike : ∀ sl idx done, scanName sl idx done (Config.charSpace :: tail) = scanName sl idx done [] :=
      fun _ _ _ => scanName_space tail
    have hscan := scanName_append_congr alike name Slots.filled 0 false
    rw [List.append_nil] at hscan
    rw [List.append_assoc, hashName, hashName, ← hscan]
    rfl

/-! ### The names of the document (41_hash section 4) -/

theorem hashName_of_scan {name : List Byte} {sl : Slots} (h : scanName ⟨78, 78, 78, 78⟩ 0 false name = some sl) :
    hashName name = some (mix sl) :=
  congrArg (Option.map mix) h

/-- The mixes of the slots of PV, r-S, dev, ver and bps, round by round; that of SP is `mix_SP`. -/
theorem mixes_of_document : mix ⟨50, 62, 78, 78⟩ = 0xB8DF ∧ mix ⟨54, 72, 56, 78⟩ = 0xAF90 ∧
    mix ⟨26, 28, 62, 78⟩ = 0xD681 ∧ mix ⟨62, 28, 54, 78⟩ = 0x2D5B ∧ mix ⟨22, 50, 56, 78⟩ = 0xB760 := by
  simp [mix, mixStep, rounds, roundOnce, Config.mixRounds, Config.mixInit, Config.polynomial]

/-- Settles O37: each name is scanned, and the slots are mixed. -/
theorem namesOfTheDocumentHaveTheirHashes : Obligations.NamesOfTheDocumentHaveTheirHashes := by
  obtain ⟨mixPV, mixRS, mixDev, mixVer, mixBps⟩ := mixes_of_document
  exact ⟨rfl, (hashName_of_scan rfl).trans (congrArg some mix_SP),
    rfl, (hashName_of_scan rfl).trans (congrArg some mixPV),
    rfl, (hashName_of_scan rfl).trans (congrArg some mixRS),
    rfl, (hashName_of_scan rfl).trans (congrArg some mixDev),
    rfl, (hashName_of_scan rfl).trans (congrArg some mixVer),
    rfl, (hashName_of_scan rfl).trans (congrArg some mixBps)⟩

end Sys2Proof.Machine
end

-- HNAME: the statement of the pseudo-command.
section
/-! HNAME (30_encoding R69) computes `Hash(name)` (41_hash R105). HCHR simulates the scan: while no error is pending the
scanner of the block is where the scan of the name is, and once a name fault is recorded the rest is refused. -/

namespace Sys2Proof.Machine

/-- What the scanner of the block makes of the characters that follow. -/
def State.scan (s : State) (cs : List Byte) : Option Slots := scanName s.slots s.sidx.toNat s.sdone cs

/-- The scan goes on in `t` where it was in `s`: only the scanner, the port's word and the answer have moved. -/
structure ScansOn (c : Byte) (s t : State) : Prop where
  clear : t.ekind = 0#3
  hash_eq : t.hash = s.hash
  inbox_eq : t.inbox = s.inbox
  sidx_le : t.sidx.toNat ≤ 4
  scan_eq : ∀ cs, s.scan (c :: cs) = t.scan cs

/-- The four causes of an invalid name are those of ProtocolError from `0x08` to `0x0B` (R181). -/
def Cause.IsNameFault (c : Cause) : Prop := c.kind = .protocolError ∧ 0x08 ≤ c.code.toNat ∧ c.code.toNat ≤ 0x0B

/-- One HCHR is one character of the scan: it scans on, or raises a name fault where the scan fails. -/
def HchrScans (c : Byte) (s : State) : Prop :=
  (∃ t, exec (.hchr c) s = .next t ∧ ScansOn c s t) ∨
    ∃ cause : Cause, cause.IsNameFault ∧ exec (.hchr c) s = raise cause s ∧ ∀ cs, s.scan (c :: cs) = none

section HchrScans
variable {s : State} {c : Byte} (hclear : s.ekind = 0#3) (hsidx : s.sidx.toNat ≤ 4)
include hclear hsidx

theorem hchrScans_afterSpace (c : Byte) (hdone : s.sdone = true) : HchrScans c s := by
  refine .inl ⟨_, exec_hchr_afterSpace hclear hdone, hclear, rfl, rfl, hsidx, fun cs => ?_⟩
  simp [State.scan, State.completed, hdone]

theorem hchrScans_space (hopen : s.sdone = false) : HchrScans Config.charSpace s := by
  refine .inl ⟨_, exec_hchr_space hclear hopen, hclear, rfl, rfl, hsidx, fun cs => ?_⟩
  simp [State.scan, State.completed]

theorem hchrScans_dot (hopen : s.sdone = false) : HchrScans Config.charDot s := by
  by_cases hfirst : s.sidx = 0#3
  · refine .inr ⟨.nameDotFirst, ⟨rfl, by decide, by decide⟩, exec_hchr_dotFirst hopen hfirst, fun cs => ?_⟩
    rw [State.scan, hopen, hfirst]
    exact scanName_dotFirst cs
  have hsome : s.sidx.toNat ≠ 0 := fun hzero => hfirst (BitVec.eq_of_toNat_eq hzero)
  cases hmark : (s.slots.get (s.sidx.toNat - 1)).getLsbD 0 with
  | true =>
    refine .inr ⟨.nameDotTwice, ⟨rfl, by decide, by decide⟩, ?_, fun cs => ?_⟩
    · simp [exec, execHchr, hopen, charDot_ne_charSpace, hfirst, hmark, unlessPending_raise,
        -BitVec.getLsbD_eq_getElem]
    · rw [State.scan, hopen]
      exact scanName_dotTwice cs hmark
  | false =>
    refine .inl ⟨_, (Completes.hchrDot hclear hopen hfirst hmark).exec_eq, hclear, rfl, rfl, hsidx, fun cs => ?_⟩
    rw [State.scan, hopen, scanName_dot cs hsome hmark, ← hopen]
    rfl

theorem hchrScans_symbol {k : BitVec 7} (hopen : s.sdone = false) (hcode : nameCode c = some k) : HchrScans c s := by
  by_cases hfull : s.sidx = 4#3
  · refine .inr ⟨.nameTooLong, ⟨rfl, by decide, by decide⟩, exec_hchr_tooLong hopen hcode hfull, fun cs => ?_⟩
    rw [State.scan, hopen, hfull, scanName_symbol cs hcode]
    rfl
  have hroom : s.sidx.toNat ≠ 4 := fun h => hfull (BitVec.eq_of_toNat_eq h)
  have hnext : (s.sidx + 1#3).toNat = s.sidx.toNat + 1 := toNat_sidx_succ (by omega)
  refine .inl ⟨_, exec_hchr_symbol hclear hopen hcode hfull, hclear, rfl, rfl, hnext.trans_le (by omega), fun cs => ?_⟩
  rw [State.scan, hopen, scanName_symbol cs hcode, if_neg (by decide), if_neg hroom, ← hnext, ← hopen]
  rfl

/-- The cases of R107 are those of R105. -/
theorem hchrScans (c : Byte) : HchrScans c s := by
  by_cases hdone : s.sdone = true
  · exact hchrScans_afterSpace hclear hsidx c hdone
  have hopen : s.sdone = false := by simpa using hdone
  by_cases hspace : c = Config.charSpace
  · exact hspace ▸ hchrScans_space hclear hsidx hopen
  by_cases hdot : c = Config.charDot
  · exact hdot ▸ hchrScans_dot hclear hsidx hopen
  cases hcode : nameCode c with
  | none =>
    refine .inr ⟨.nameIllegalChar, ⟨rfl, by decide, by decide⟩, exec_hchr_illegalChar hopen hspace hdot hcode,
      fun cs => ?_⟩
    rw [State.scan, hopen]
    exact scanName_illegalChar cs hspace hdot hcode
  | some k => exact hchrScans_symbol hclear hsidx hopen hcode

end HchrScans

/-- Once an error is pending, transfers that are refused leave the block as it is (R184). -/
theorem run_refused {cmds : List Instr} (hrefused : ∀ i ∈ cmds, RefusedWhilePending i) {s : State}
    (hpending : s.ekind ≠ 0#3) {rest : List HostEvent} (hinbox : s.inbox = cmds.map (transfer ·) ++ rest) :
    ∃ t, Host.Core.run core cmds.length s = .next t ∧ t.inbox = rest ∧ t.toBlock = s.toBlock := by
  induction cmds generalizing s with
  | nil => exact ⟨s, rfl, hinbox, rfl⟩
  | cons i cmds ih =>
    have hstep := (step_transfer hinbox).trans (hrefused i (by simp) _ hpending)
    obtain ⟨t, hrun, hrest, hblock⟩ := ih (fun j hj => hrefused j (by simp [hj]))
      (s := (s.accept (encode i) 0 (cmds.map (transfer ·) ++ rest)).refused) hpending rfl
    exact ⟨t, (run_of_step hstep _).trans hrun, hrest, hblock⟩

/-- What HNAME leaves, given what the scan of the name comes to and the `HASH` before: the mix in `HASH`, or a name
fault. -/
def HnameLeaves (hash : Half) (rest : List HostEvent) (result : Option Slots) (t : State) : Prop :=
  t.inbox = rest ∧ match result.map mix with
    | some h => t.ekind = 0#3 ∧ t.hash = h ∧ t.rsp = some ⟨true, 0⟩
    | none => t.ekind = 1#3 ∧ 0x08 ≤ t.ecause.toNat ∧ t.ecause.toNat ≤ 0x0B ∧ t.hash = hash

/-- The commands of HNAME after HCLR. -/
def hnameTail (name : List Byte) : List Instr := name.map .hchr ++ [.hmix]

/-- After a name fault the rest of HNAME is refused, and the first error and `HASH` stay (R184, R186). -/
theorem run_after_nameFault {s : State} {cause : Cause} (hfault : cause.IsNameFault) (name : List Byte)
    {rest : List HostEvent} (hinbox : s.inbox = (hnameTail name).map (transfer ·) ++ rest) :
    ∃ t, Host.Core.run core (name.length + 1) (s.failed cause.kind.code cause.code) = .next t ∧
      HnameLeaves s.hash rest none t := by
  have hrefused : ∀ i ∈ hnameTail name, RefusedWhilePending i := by
    intro i hi
    simp only [hnameTail, List.mem_append, List.mem_map, List.mem_singleton] at hi
    rcases hi with ⟨c, -, rfl⟩ | rfl
    · exact refusedWhilePending_hchr c
    · exact refusedWhilePending_hmix
  obtain ⟨t, hrun, hrest, hblock⟩ :=
    run_refused hrefused (s := s.failed cause.kind.code cause.code) (cause_kind_code_ne cause) hinbox
  obtain ⟨hkind, hlo, hhi⟩ := hfault
  have hlen : (hnameTail name).length = name.length + 1 := by simp [hnameTail]
  refine ⟨t, hlen ▸ hrun, hrest, ?_⟩
  dsimp only [Option.map]
  rw [hblock]
  exact ⟨congrArg Kind.code hkind, hlo, hhi, rfl⟩

/-- The simulation: from any legal scanner, the characters presented and HMIX come to what the scan comes to. -/
theorem run_hnameTail (name : List Byte) {s : State} (hclear : s.ekind = 0#3) (hsidx : s.sidx.toNat ≤ 4)
    {rest : List HostEvent} (hinbox : s.inbox = (hnameTail name).map (transfer ·) ++ rest) :
    ∃ t, Host.Core.run core (name.length + 1) s = .next t ∧ HnameLeaves s.hash rest (s.scan name) t := by
  induction name generalizing s with
  | nil =>
    have hstep := (step_transfer hinbox).trans (exec_hmix (s := s.accept (encode .hmix) 0 rest) hclear)
    exact ⟨_, run_of_step hstep 0, rfl, hclear, rfl, rfl⟩
  | cons c name ih =>
    have hstep := step_transfer hinbox
    rcases hchrScans (s := s.accept (encode (.hchr c)) 0 ((hnameTail name).map (transfer ·) ++ rest)) hclear hsidx c
      with ⟨u, hu, hon⟩ | ⟨cause, hfault, hraise, hnone⟩
    · obtain ⟨t, hrun, hleaves⟩ := ih hon.clear hon.sidx_le hon.inbox_eq
      have hscan : s.scan (c :: name) = u.scan name := hon.scan_eq name
      have hhash : u.hash = s.hash := hon.hash_eq
      exact ⟨t, (run_of_step (hstep.trans hu) _).trans hrun, hscan ▸ hhash ▸ hleaves⟩
    · obtain ⟨t, hrun, hleaves⟩ := run_after_nameFault hfault name
        (s := s.accept (encode (.hchr c)) 0 ((hnameTail name).map (transfer ·) ++ rest)) rfl
      have hscan : s.scan (c :: name) = none := hnone name
      have hfails := (hstep.trans hraise).trans (raise_of_clear cause hclear)
      exact ⟨t, (run_of_step hfails _).trans hrun, hscan ▸ hleaves⟩

/-- Settles O35: HCLR puts the scanner where the scan of a name starts, and `HASH` is still the one before. -/
theorem hnameComputesTheHashOfTheName : Obligations.HnameComputesTheHashOfTheName := by
  intro s name hclear
  have hevents : pseudoHname name = transfer .hclr :: (hnameTail name).map (transfer ·) := by
    simp [pseudoHname, hnameTail]
  have hstep := (step_transfer (congrArg (· ++ s.inbox) hevents)).trans
    (exec_hclr (s := (s.presentAll (pseudoHname name)).accept (encode .hclr) 0
      ((hnameTail name).map (transfer ·) ++ s.inbox)) hclear)
  rw [run_of_step hstep]
  refine run_hnameTail name ?clear ?atStart ?later
  case clear => exact hclear
  case atStart => exact Nat.zero_le 4
  case later => rfl

end Sys2Proof.Machine
end

-- CRC16: linearity, injectivity and the residue, and the statement of 42_crc16 section 3.
section
/-! CRC16 as algebra over XOR. A round is linear, so a step and CRC16 are; its kernel is 0, since the constant has bit 0
set; and it only shifts while the bits it shifts out are 0. Linearity is the XOR law, a trivial kernel makes a corrupted
byte show, and the shift is what the two bytes of the residue come to. -/

namespace Sys2Proof.Machine

/-! ### A round is linear and has a trivial kernel -/

/-- The constant that a round adds, for the bit it shifts out (R102). -/
theorem roundOnce_eq_xor (acc : Half) :
    roundOnce acc = (acc <<< 1) ^^^ (if acc.getLsbD 15 then Config.polynomial else 0#16) := by
  unfold roundOnce
  split <;> simp

theorem roundOnce_xor (a b : Half) : roundOnce (a ^^^ b) = roundOnce a ^^^ roundOnce b := by
  have constants (x y : Bool) : (if (x ^^ y) = true then Config.polynomial else 0#16) =
      (if x = true then Config.polynomial else 0#16) ^^^ (if y = true then Config.polynomial else 0#16) := by
    cases x <;> cases y <;> decide
  rw [roundOnce_eq_xor, roundOnce_eq_xor a, roundOnce_eq_xor b, BitVec.getLsbD_xor, constants,
    BitVec.shiftLeft_xor_distrib]
  ac_rfl

/-- Bit 0 after a round is the bit shifted out, as the constant is odd. -/
theorem roundOnce_getLsbD_zero (acc : Half) : (roundOnce acc).getLsbD 0 = acc.getLsbD 15 := by
  have odd : Config.polynomial.getLsbD 0 = true := by decide
  rw [roundOnce_eq_xor, BitVec.getLsbD_xor, BitVec.getLsbD_shiftLeft]
  cases acc.getLsbD 15 with
  | true => simp [odd, -BitVec.getLsbD_eq_getElem]
  | false => simp

theorem eq_zero_of_roundOnce_eq_zero {acc : Half} (h : roundOnce acc = 0#16) : acc = 0#16 := by
  have top : acc.getLsbD 15 = false := by rw [← roundOnce_getLsbD_zero, h]; rfl
  have shifted : acc <<< 1 = 0#16 := (roundOnce_of_clear top).symm.trans h
  apply BitVec.eq_of_getLsbD_eq
  intro i hi
  by_cases hlast : i = 15
  · subst hlast
    simpa using top
  · have hbit := congrArg (BitVec.getLsbD · (i + 1)) shifted
    have hin : i + 1 < 16 := by omega
    simpa [BitVec.getLsbD_shiftLeft, hin, -BitVec.getLsbD_eq_getElem] using hbit

/-! ### The rounds of a step -/

theorem rounds_xor (n : Nat) (a b : Half) : rounds n (a ^^^ b) = rounds n a ^^^ rounds n b := by
  induction n generalizing a b with
  | zero => rfl
  | succ n ih => rw [rounds, roundOnce_xor, ih]; rfl

theorem eq_zero_of_rounds_eq_zero {n : Nat} {acc : Half} (h : rounds n acc = 0#16) : acc = 0#16 := by
  induction n generalizing acc with
  | zero => exact h
  | succ n ih => exact eq_zero_of_roundOnce_eq_zero (ih h)

/-- A linear function with a trivial kernel is injective. -/
theorem rounds_injective (n : Nat) : Function.Injective (rounds n) := by
  intro a b h
  refine BitVec.xor_eq_zero_iff.1 (eq_zero_of_rounds_eq_zero (n := n) ?_)
  rw [rounds_xor, h, BitVec.xor_self]

theorem rounds_zero_acc (n : Nat) : rounds n 0#16 = 0#16 := by
  have h := rounds_xor n 0#16 0#16
  rwa [BitVec.xor_self, BitVec.xor_self] at h

/-- While the bits shifted out are 0, the rounds only shift. -/
theorem rounds_eq_shiftLeft {n : Nat} {acc : Half} (hn : n ≤ 16) (h : acc.toNat < 2 ^ (16 - n)) :
    rounds n acc = acc <<< n := by
  induction n generalizing acc with
  | zero => simp [rounds]
  | succ n ih =>
    have hpow : 2 ^ (16 - n) = 2 ^ (16 - (n + 1)) * 2 := by rw [← Nat.pow_succ]; congr 1; omega
    have hle : 2 ^ (16 - (n + 1)) ≤ 2 ^ 15 := Nat.pow_le_pow_right (by decide) (by omega)
    have top : acc.getLsbD 15 = false := Nat.testBit_lt_two_pow (by omega)
    have hshift : (acc <<< 1).toNat = acc.toNat * 2 := by
      rw [BitVec.toNat_shiftLeft, Nat.shiftLeft_eq, Nat.pow_one]
      exact Nat.mod_eq_of_lt (by omega)
    rw [rounds, roundOnce_of_clear top, ih (by omega) (by omega), ← BitVec.shiftLeft_add, Nat.add_comm 1]

/-! ### A step (R120) -/

theorem crcStep_xor (a b : Half) (v w : Byte) : crcStep (a ^^^ b) (v ^^^ w) = crcStep a v ^^^ crcStep b w := by
  have bytes : ((v ^^^ w) ++ 0#8 : Half) = (v ++ 0#8) ^^^ (w ++ 0#8) := by
    rw [BitVec.xor_append, BitVec.xor_self]
  rw [crcStep_eq_rounds, crcStep_eq_rounds, crcStep_eq_rounds, ← rounds_xor, bytes]
  congr 1
  ac_rfl

theorem crcStep_injective_acc (v : Byte) : Function.Injective (crcStep · v) := by
  intro a b h
  simp only [crcStep_eq_rounds] at h
  exact (BitVec.xor_left_inj _).1 (rounds_injective 8 h)

theorem crcStep_injective_byte (acc : Half) : Function.Injective (crcStep acc) := by
  intro v w h
  simp only [crcStep_eq_rounds] at h
  have happend := (BitVec.xor_right_inj _).1 (rounds_injective 8 h)
  rw [← hi_append v 0#8, happend, hi_append]

/-- The high byte of an accumulator cancels itself and leaves the low byte shifted up, which cancels the low byte. -/
theorem crcStep_own_bytes (hi lo : Byte) : crcStep (crcStep (hi ++ lo) hi) lo = 0#16 := by
  have afterHigh : crcStep (hi ++ lo) hi = lo ++ 0#8 := by
    have cancel : (hi ++ lo : Half) ^^^ (hi ++ 0#8) = 0#8 ++ lo := by
      rw [BitVec.xor_append, BitVec.xor_self, BitVec.xor_zero]
    have widened : (0#8 ++ lo : Half) = lo.setWidth 16 := by simp [BitVec.setWidth_eq_append]
    have small : (lo.setWidth 16).toNat < 2 ^ (16 - 8) := by
      rw [BitVec.toNat_setWidth_of_le (by decide)]
      exact lo.isLt
    rw [crcStep_eq_rounds, cancel, widened, rounds_eq_shiftLeft (by decide) small]
    exact setWidth_shiftLeft_eq_append lo 8
  rw [crcStep_eq_rounds, afterHigh, BitVec.xor_self, rounds_zero_acc]

/-! ### CRC16 of a list (R121) -/

theorem foldl_crcStep_injective (bytes : List Byte) : Function.Injective (bytes.foldl crcStep ·) := by
  induction bytes with
  | nil => exact fun _ _ h => h
  | cons v bytes ih => exact fun _ _ h => crcStep_injective_acc v (ih h)

theorem foldl_crcStep_xor {a b : List Byte} (hlen : a.length = b.length) (x y : Half) :
    (List.zipWith (· ^^^ ·) a b).foldl crcStep (x ^^^ y) = a.foldl crcStep x ^^^ b.foldl crcStep y := by
  induction a generalizing b x y with
  | nil =>
    cases b with
    | nil => rfl
    | cons w b => cases hlen
  | cons v a ih =>
    cases b with
    | nil => cases hlen
    | cons w b =>
      simp only [List.zipWith_cons_cons, List.foldl_cons, crcStep_xor]
      exact ih (Nat.succ.inj hlen) _ _

/-- A list followed by its own CRC has CRC 0. -/
theorem crc16_residue (l : List Byte) : crc16 (l ++ halfBytes (crc16 l)) = 0#16 := by
  rw [crc16_append]
  conv_lhs => rw [← half_eq_bytes (crc16 l), halfBytes_append]
  exact crcStep_own_bytes _ _

theorem crc16_ne_of_byte_ne (pre post : List Byte) {x y : Byte} (h : x ≠ y) :
    crc16 (pre ++ [x] ++ post) ≠ crc16 (pre ++ [y] ++ post) := by
  rw [crc16_append _ post, crc16_append _ post, crc16_snoc, crc16_snoc]
  exact fun heq => h (crcStep_injective_byte _ (foldl_crcStep_injective post heq))

/-- Settles O42: the residue is a list followed by its own CRC, and the check value is evaluated round by round. -/
theorem crc16ResidueCorruptionAndLinearity : Obligations.Crc16ResidueCorruptionAndLinearity := by
  refine ⟨crc16_residue, fun pre post x y => crc16_ne_of_byte_ne pre post,
    fun a b hlen => foldl_crcStep_xor hlen 0#16 0#16, ?checkValue⟩
  case checkValue =>
    simp [crc16, crcStep, rounds, roundOnce, Config.crcRounds, Config.crcInit, Config.polynomial]

end Sys2Proof.Machine
end

-- The round trips of the value codec: the statements of 43_value_codec section 5.
section
/-! What a pack command put into `PAY` the unpack command with the same modifiers takes out again, whatever the
registers it writes held in between. -/

namespace Sys2Proof.Machine

/-! ### Floats and strings -/

/-- A 32-bit value by its bytes, the more significant first (R45). -/
theorem exists_word_bytes (v : Word) : ∃ v3 v2 v1 v0 : Byte, v = v3 ++ v2 ++ v1 ++ v0 := by
  refine ⟨v.extractLsb' 24 8, v.extractLsb' 16 8, v.extractLsb' 8 8, v.extractLsb' 0 8, ?_⟩
  have join {a n m : Nat} (h : a = n + m) (k : Nat) :
      v.extractLsb' a k ++ v.extractLsb' n m = v.extractLsb' n (k + m) :=
    BitVec.extractLsb'_append_extractLsb'_eq_extractLsb' h
  rw [join (a := 24) (n := 16) rfl, join (a := 16) (n := 8) rfl, join (a := 8) (n := 0) rfl]
  exact BitVec.extractLsb'_eq_self.symm

theorem exists_half_bytes (v : Half) : ∃ v1 v0 : Byte, v = v1 ++ v0 :=
  ⟨_, _, (half_eq_bytes v).symm⟩

/-- What Float24 keeps of a value (R135, R140). -/
theorem clear_low_byte (v : BitVec 24) (b : Byte) : (v ++ b : Word) &&& 0xFFFFFF00 = v ++ 0#8 := by
  have mask : (0xFFFFFF00 : Word) = BitVec.allOnes 24 ++ 0#8 := rfl
  rw [mask, BitVec.and_append, BitVec.and_allOnes, BitVec.and_zero]

theorem float24_roundTrip {s t u : State} (hclear : s.ekind = 0#3) (hpack : exec .pkf24 s = .next t)
    (hunpack : exec .upf24 t = .next u) : u.val = s.val &&& 0xFFFFFF00 ∧ u.rsp = some ⟨true, 0⟩ := by
  obtain ⟨v3, v2, v1, v0, hval⟩ := exists_word_bytes s.val
  have ht := Host.Outcome.next.inj ((exec_pkf24 hclear hval).symm.trans hpack)
  have hclear' : t.ekind = 0#3 := ht ▸ hclear
  have hpay : t.pay = [v3, v2, v1] := ht ▸ rfl
  cases (exec_upf24_three hclear' hpay).symm.trans hunpack
  rw [hval, clear_low_byte]
  exact ⟨rfl, rfl⟩

/-- The fields come back in the order they were packed in, each by its own modifier. -/
theorem float32_roundTrip {time index : Bool} {s t u : State} {v : Word} {a b : Half} (hclear : s.ekind = 0#3)
    (hpack : exec (.pkf32 time index) s = .next t)
    (hunpack : exec (.upf32 time index) { t with val := v, vtime := a, vidx := b } = .next u) :
    u.rsp = some ⟨true, 0⟩ ∧ u.val = s.val ∧ u.vtime = (if time then s.vtime else a) ∧
      u.vidx = (if index then s.vidx else b) := by
  obtain ⟨v3, v2, v1, v0, hval⟩ := exists_word_bytes s.val
  obtain ⟨t1, t0, htime⟩ := exists_half_bytes s.vtime
  obtain ⟨i1, i0, hidx⟩ := exists_half_bytes s.vidx
  have ht := Host.Outcome.next.inj ((exec_pkf32 time index hclear).symm.trans hpack)
  have hclear' : t.ekind = 0#3 := ht ▸ hclear
  have hpay : t.pay = [v3, v2, v1, v0] ++ ((if time then [t1, t0] else []) ++ (if index then [i1, i0] else [])) := by
    rw [← List.append_assoc, ← float32Payload_append, ← hval, ← htime, ← hidx]
    exact ht ▸ rfl
  cases (exec_upf32 (s := { t with val := v, vtime := a, vidx := b }) hclear' hpay
    (by cases time <;> cases index <;> rfl)).symm.trans hunpack
  rw [hval, htime, hidx]
  refine ⟨rfl, rfl, ?_, ?_⟩ <;> cases time <;> cases index <;> rfl

theorem string_roundTrip {s t u : State} {l : List Byte} (hclear : s.ekind = 0#3) (hpack : exec .pkstr s = .next t)
    (hunpack : exec .upstr { t with str := l } = .next u) : u.str = s.str := by
  have ht := Host.Outcome.next.inj ((exec_pkstr hclear).symm.trans hpack)
  have hclear' : t.ekind = 0#3 := ht ▸ hclear
  have hpay : t.pay = s.str.reverse := ht ▸ rfl
  cases (exec_upstr (s := { t with str := l }) hclear').symm.trans hunpack
  exact hpay ▸ List.reverse_reverse s.str

theorem payload_roundTrip {s t u : State} {l : List Byte} (hclear : s.ekind = 0#3) (hunpack : exec .upstr s = .next t)
    (hpack : exec .pkstr { t with pay := l } = .next u) : u.pay = s.pay := by
  have ht := Host.Outcome.next.inj ((exec_upstr hclear).symm.trans hunpack)
  have hclear' : t.ekind = 0#3 := ht ▸ hclear
  have hstr : t.str = s.pay.reverse := ht ▸ rfl
  cases (exec_pkstr (s := { t with pay := l }) hclear').symm.trans hpack
  exact hstr ▸ List.reverse_reverse s.pay

/-- Settles O53: the two floats, and the string reversed twice in either order. -/
theorem floatAndStringRoundTrips : Obligations.FloatAndStringRoundTrips :=
  ⟨fun _ _ _ => float24_roundTrip, fun _ _ _ _ _ _ _ _ => float32_roundTrip, fun _ _ _ _ => string_roundTrip,
    fun _ _ _ _ => payload_roundTrip, fun _ => List.reverse_reverse _⟩

/-! ### Integers -/

/-- A value in the range of a pack is the extension of its low bits (R132, R133, R137, R138). -/
theorem extendInteger_low_of_fits {signed : Bool} {w : Nat} {v : Word} (hw : w ≤ 32)
    (hfits : fitsInteger signed w v = true) : extendInteger signed (v.extractLsb' 0 w) = v := by
  rw [← BitVec.setWidth_eq_extractLsb' hw]
  cases signed with
  | true => exact (beq_iff_eq.1 hfits).symm
  | false =>
    have hlt := fitsInteger_unsigned_iff.1 hfits
    apply BitVec.eq_of_toNat_eq
    rw [extendInteger, if_neg (by decide), BitVec.toNat_setWidth_of_le hw, BitVec.toNat_setWidth]
    exact Nat.mod_eq_of_lt hlt

/-- Settles O54: a pack that completed checked the range, and the unpack joins the bytes and extends them. -/
theorem integerRoundTrips : Obligations.IntegerRoundTrips := by
  refine fun signed s t u v hclear => ⟨fun hpack hok hunpack => ?int16, fun hpack hok hunpack => ?char⟩
  case int16 =>
    cases completes_of_ok hpack hok with
    | pki16 _ hfits =>
      cases (exec_upi16_two (by exact hclear) rfl).symm.trans hunpack
      exact ⟨(congrArg _ (half_eq_bytes _)).trans (extendInteger_low_of_fits (by decide) hfits), rfl⟩
  case char =>
    cases completes_of_ok hpack hok with
    | pkchr _ hfits =>
      cases (exec_upchr_one (by exact hclear) rfl).symm.trans hunpack
      exact ⟨extendInteger_low_of_fits (by decide) hfits, rfl⟩

end Sys2Proof.Machine
end

-- The round trips of FRMU: the statements of 44_frame section 2 and 45_rawframe section 3.
section
/-! A Frame FPACK built carries the fields FUNPK reads and its own CRC16; a RawFrame is the markers around the nibble
pairs of the Frame bytes, and two nibble bytes are the pair of the byte they join to. -/

namespace Sys2Proof.Machine

/-! ### Frames -/

/-- The bytes of a Frame before its payload, as the address, the flags and the two bytes of the hash (R150). -/
theorem frameBody_eq_bytes (al11 : Bool) (addr : BitVec 11) (hash : Half) (q : Bool) (pay : List Byte) :
    frameBody al11 addr hash q pay =
      [addressByte al11 addr, flagsByte al11 addr q pay.length, hash.extractLsb' 8 8, hash.extractLsb' 0 8] ++ pay := by
  simp [frameBody, halfBytes]

section Flags
variable {al11 : Bool} {addr : BitVec 11} {q : Bool} {n : Nat}

/-- Bits 3:0 of the flags byte (R151). -/
theorem flagsByte_size : (flagsByte al11 addr q n).toNat % 16 = (sizeField q n).toNat := by
  have hfield : (flagsByte al11 addr q n).extractLsb' 0 4 = sizeField q n := BitVec.extractLsb'_append_eq_right
  rw [← hfield, BitVec.extractLsb'_toNat]
  rfl

/-- Bit 4 of the flags byte (R151). -/
theorem flagsByte_request : (flagsByte al11 addr q n).getLsbD 4 = q := by
  rw [flagsByte, BitVec.getLsbD_append, if_neg (by decide), BitVec.getLsbD_append, if_pos (by decide)]
  cases q <;> rfl

/-- Bits 7:5 of the flags byte (R151). -/
theorem flagsByte_addressLow : (flagsByte al11 addr q n).extractLsb' 5 3 = addressLow al11 addr := by
  rw [flagsByte, BitVec.extractLsb'_append_eq_of_le (by decide)]
  exact BitVec.extractLsb'_append_eq_left

end Flags

/-- A Frame's size is the length of its payload, of which a request has none. -/
theorem sizeField_toNat {q : Bool} {pay : List Byte} (hlen : pay.length ≤ 15) (hrequest : q = true → pay = []) :
    (sizeField q pay.length).toNat = pay.length := by
  cases q with
  | true => simp [sizeField, hrequest rfl]
  | false =>
    rw [sizeField, if_neg (by decide), BitVec.toNat_ofNat]
    exact Nat.mod_eq_of_lt (by omega)

/-- The address fields of both modes carry the whole address, in 8-bit mode as far as FPACK accepts it (R152, R153). -/
theorem address_of_fields {al11 : Bool} {addr : BitVec 11} (haddr : al11 = false → addr.toNat ≤ 0xFF) :
    (if al11 then addressByte al11 addr ++ addressLow al11 addr else 0#3 ++ addressByte al11 addr) = addr := by
  cases al11 with
  | true =>
    have join : addr.extractLsb' 3 8 ++ addr.extractLsb' 0 3 = addr.extractLsb' 0 11 :=
      BitVec.extractLsb'_append_extractLsb'_eq_extractLsb' rfl
    exact join.trans BitVec.extractLsb'_eq_self
  | false =>
    have join : addr.extractLsb' 8 3 ++ addr.extractLsb' 0 8 = addr.extractLsb' 0 11 :=
      BitVec.extractLsb'_append_extractLsb'_eq_extractLsb' rfl
    rw [addressHigh_eq_zero_iff.2 (haddr rfl)] at join
    exact join.trans BitVec.extractLsb'_eq_self

/-- FUNPK of a Frame that passes its checks, in the bytes of the Frame. -/
theorem exec_funpk_accepted {s : State} {b0 b1 b2 b3 c1 c0 : Byte} {p : List Byte} (hclear : s.ekind = 0#3)
    (hfrm : s.frm = [b0, b1, b2, b3] ++ p ++ [c1, c0]) (hcrc : crc16 ([b0, b1, b2, b3] ++ p) = c1 ++ c0)
    (hsize : b1.toNat % 16 = p.length) :
    exec .funpk s = .next ({ s with
      rxaddr := if s.al11 then b0 ++ b1.extractLsb' 5 3 else 0#3 ++ b0
      rxflags := b1
      rxhash := b2 ++ b3
      rxcrc := c1 ++ c0
      crc := c1 ++ c0
      pay := p }.completed 0) := by
  rw [exec_funpk_of_bytes hfrm, unlessPending_of_clear _ hclear, if_neg (not_not.2 hcrc), if_neg (not_not.2 hsize),
    hcrc]

/-- An FPACK that completed passed its checks and wrote `FRM` and `CRC` alone. -/
theorem fpack_of_ok {q : Bool} {s t : State} {rdata : Word} (h : exec (.fpack q) s = .next t)
    (hok : t.rsp = some ⟨true, rdata⟩) :
    (q = true → s.pay = []) ∧ (s.al11 = false → s.addr.toNat ≤ 0xFF) ∧
      t = { s with
        frm := frameBody s.al11 s.addr s.hash q s.pay ++ halfBytes (crc16 (frameBody s.al11 s.addr s.hash q s.pay))
        crc := crc16 (frameBody s.al11 s.addr s.hash q s.pay) }.completed 0 := by
  cases completes_of_ok h hok with
  | fpack _ hrequest haddr => exact ⟨hrequest, haddr, rfl⟩

/-- Settles O57: the Frame in the bytes of its fields passes the checks of FUNPK and gives each field back; its CRC16 is
the residue of the body followed by its own CRC. -/
theorem funpkAcceptsWhatFpackProduced : Obligations.FunpkAcceptsWhatFpackProduced := by
  intro q s t u p hclear hlen hpack hok hunpack
  obtain ⟨hrequest, haddr, ht⟩ := fpack_of_ok hpack hok
  have hclear' : t.ekind = 0#3 := ht ▸ hclear
  have hmode : t.al11 = s.al11 := ht ▸ rfl
  have hcrc : crc16 (frameBody s.al11 s.addr s.hash q s.pay) = t.crc := ht ▸ rfl
  have hfrm : t.frm = frameBody s.al11 s.addr s.hash q s.pay ++ halfBytes t.crc := ht ▸ rfl
  have hresidue : crc16 t.frm = 0x0000 := by
    rw [hfrm, ← hcrc]
    exact crc16_residue _
  have hsize : (flagsByte s.al11 s.addr q s.pay.length).toNat % 16 = s.pay.length :=
    flagsByte_size.trans (sizeField_toNat hlen hrequest)
  rw [frameBody_eq_bytes] at hcrc hfrm
  cases (exec_funpk_accepted (s := { t with pay := p }) hclear' hfrm (hcrc.trans (half_eq_bytes t.crc).symm)
    hsize).symm.trans hunpack
  refine ⟨rfl, ?address, half_eq_bytes _, flagsByte_request, rfl, half_eq_bytes _, hresidue⟩
  case address =>
    rw [flagsByte_addressLow, hmode]
    exact address_of_fields haddr

/-! ### RawFrames -/

/-- Two nibble bytes are the pair of the byte they join to (R167, R169). -/
theorem nibblePair_join {hi lo : Byte} (hhi : isNibbleByte hi = true) (hlo : isNibbleByte lo = true) :
    nibblePair (((hi - Config.nibbleBase) <<< 4) ||| (lo - Config.nibbleBase)) = [hi, lo] := by
  have nibble : ∀ v : Byte, isNibbleByte v = true → ∃ h : BitVec 4, v = nibbleByte h := by decide
  have pair : ∀ a b : BitVec 4, nibblePair (((nibbleByte a - Config.nibbleBase) <<< 4) |||
      (nibbleByte b - Config.nibbleBase)) = [nibbleByte a, nibbleByte b] := by decide
  obtain ⟨a, rfl⟩ := nibble hi hhi
  obtain ⟨b, rfl⟩ := nibble lo hlo
  exact pair a b

/-- The nibble pairs of the joined bytes are the nibble bytes, when there is an even number of them. -/
theorem pairs_joinNibbles {m : List Byte} (heven : m.length % 2 = 0) (hall : m.all isNibbleByte = true) :
    (joinNibbles m).flatMap nibblePair = m := by
  induction m using joinNibbles.induct with
  | case1 hi lo rest ih =>
    simp only [List.all_cons, Bool.and_eq_true] at hall
    obtain ⟨hhi, hlo, hrest⟩ := hall
    have heven' : rest.length % 2 = 0 := (Nat.add_mod_right rest.length 2).symm.trans heven
    rw [joinNibbles, List.flatMap_cons, nibblePair_join hhi hlo, ih heven' hrest]
    rfl
  | case2 m hshort =>
    match m, hshort with
    | [], _ => rfl
    | [_], _ => simp at heven
    | a :: b :: rest, hshort => exact absurd rfl (hshort a b rest)

/-- A RawFrame that has both markers is the bytes between them, in the markers: they are two bytes, being different. -/
theorem raw_eq_markers {raw : List Byte} (hstart : raw.head? = some Config.startMarker)
    (hend : raw.getLast? = some Config.endMarker) :
    raw = [Config.startMarker] ++ betweenMarkers raw ++ [Config.endMarker] := by
  obtain ⟨rest, rfl⟩ := List.head?_eq_some_iff.1 hstart
  rcases List.eq_nil_or_concat rest with rfl | ⟨m, last, rfl⟩
  · exact absurd hend (by decide)
  · rw [List.concat_eq_append] at hend ⊢
    rw [← List.cons_append, List.getLast?_concat] at hend
    rw [Option.some.inj hend, betweenMarkers_of]
    rfl

/-- The bytes RPACK puts between the markers pass the checks of RUNPK. -/
theorem pairs_accepted (frame : List Byte) : (frame.flatMap nibblePair).length % 2 = 0 ∧
    (frame.flatMap nibblePair).all isNibbleByte = true := by
  induction frame with
  | nil => decide
  | cons v frame ih =>
    obtain ⟨heven, hall⟩ := ih
    rw [List.flatMap_cons, List.length_append, List.all_append, hall]
    exact ⟨by rw [nibblePair_length]; omega, by simp [nibblePair, nibbleByte_legal]⟩

/-- RUNPK of a RawFrame that passes its checks, in the bytes between the markers. -/
theorem exec_runpk_accepted {s : State} {m : List Byte} (hclear : s.ekind = 0#3)
    (hraw : s.raw = [Config.startMarker] ++ m ++ [Config.endMarker]) (heven : m.length % 2 = 0)
    (hall : m.all isNibbleByte = true) : exec .runpk s = .next ({ s with frm := joinNibbles m }.completed 0) := by
  rw [exec_runpk_of_bytes hraw, unlessPending_of_clear _ hclear, if_neg (not_not.2 heven), if_neg (by simp [hall])]

/-- Settles O60: joining undoes pairing in both directions, on all bytes and on all accepted nibble bytes. -/
theorem rawFrameRoundTrips : Obligations.RawFrameRoundTrips := by
  refine ⟨fun s t u f hclear hpack hunpack => ?packUnpack, fun s t u r hclear hunpack hok hpack => ?unpackPack⟩
  case packUnpack =>
    have ht := Host.Outcome.next.inj ((exec_rpack hclear).symm.trans hpack)
    have hclear' : t.ekind = 0#3 := ht ▸ hclear
    have hraw : t.raw = [Config.startMarker] ++ s.frm.flatMap nibblePair ++ [Config.endMarker] := ht ▸ rfl
    obtain ⟨heven, hall⟩ := pairs_accepted s.frm
    cases (exec_runpk_accepted (s := { t with frm := f }) hclear' hraw heven hall).symm.trans hunpack
    exact ⟨joinNibbles_pairs s.frm, rfl⟩
  case unpackPack =>
    cases completes_of_ok hunpack hok with
    | runpk _ hstart hend heven hnibbles =>
      cases (exec_rpack (by exact hclear)).symm.trans hpack
      rw [← betweenMarkers_length] at heven
      exact (congrArg (fun m => [Config.startMarker] ++ m ++ [Config.endMarker])
        (pairs_joinNibbles heven hnibbles)).trans (raw_eq_markers hstart hend).symm

end Sys2Proof.Machine
end
